-- ==== Sys2Proof/Word.lean ====
section
/-! DEFINITION. The words of the block: register bytes, the divisor latch, register offsets, event codes
and the 14-bit stimulus word (rules R8, R51, R70 to R73). -/

namespace Sys2Proof

/-- A register value, write datum or payload, `u8` (R8, R51). -/
abbrev Byte := BitVec 8

/-- The divisor latch `DL`, `u16` (R30). -/
abbrev Half := BitVec 16

/-- A register offset, the field `A` (R50, R71). -/
abbrev Offset := BitVec 4

/-- An event code, the field `E` (R73). -/
abbrev EventCode := BitVec 5

/-- A stimulus word `S[13:0]` (R70). -/
abbrev Word := BitVec 14

end Sys2Proof
end

