-- ==== Sys2Proof/Config.lean ====
section
/-! DEFINITION. What a configuration fixes (rule R6), the types of the decode table (R210), and the free
values of reset (R22, R25, R26). -/

namespace Sys2Proof

/-- `DIV_ROUNDING` (R6, R171). -/
inductive Rounding where
  | floor
  | nearest
  deriving DecidableEq, Repr

/-- `STOP_BITS`, 1 or 2 (R6, D23). -/
inductive StopBits where
  | one
  | two
  deriving DecidableEq, Repr

/-- The polarity `p` of a decode-table entry (R210). -/
inductive Polarity where
  | activeHigh
  | activeLow
  deriving DecidableEq, Repr

/-- One entry `(line j, bit b, polarity p)` of the decode table (R210). -/
structure MapEntry where
  line : Fin 8
  bit : Fin 8
  polarity : Polarity
  deriving DecidableEq, Repr

/-- The decode table `MAP`, fixed for a run (R6, R210). -/
abbrev DecodeMap := List MapEntry

namespace Config

/-- `DATA_BITS` (R6). -/
def dataBits : Nat := 8

/-- `REF_RATE`, in symbols per second (R6). -/
def refRate : Nat := 4800

/-- `OVERSAMPLE` (R6, D21). -/
def oversample : Nat := 16

/-- `N_LINES` (R6). -/
def nLines : Nat := 8

/-- The parameters of R6 that the spec leaves `OPEN`, with `OUT_INIT` of R253. -/
structure Params where
  /-- `F_REF` in Hz, a positive integer (R6, D22). -/
  fRef : ℕ+
  /-- `DIV_ROUNDING`, `floor` by default (D21). -/
  rounding : Rounding := .floor
  /-- `STOP_BITS` (D23). -/
  stopBits : StopBits := .one
  /-- `BASE`, the bus address of offset 0 (D28). -/
  base : Nat := 0
  /-- `MAP` (R210). -/
  map : DecodeMap := []
  /-- `OUT_INIT` (R253). -/
  outInit : Byte := 0
  deriving DecidableEq, Repr

/-- FREE VALUE (R22, D13; log entry 5): the byte `draw u8` gives `RBR` at the reset of this number. -/
opaque rbrDraw : Nat → Byte

/-- FREE VALUE (R25, U3; log entry 6): what the reset of this number leaves in `THR`. -/
opaque thrDraw : Nat → Byte

/-- FREE VALUE (R26, U3; log entry 6): what the reset of this number leaves in `TSR`. -/
opaque tsrDraw : Nat → Byte

end Config

end Sys2Proof
end

