-- ==== Sys2Proof/Machine/State.lean ====
section
/-! DEFINITION. The state record of rule R21, the model's own run fields, the state after power-on reset (R35,
R252), and the reasons a step can stop (none does: R230). -/

namespace Sys2Proof.Machine

/-- The register a bus read returned, the tag of an entry of `State.readLog` (R34, read columns). -/
inductive ReadReg where
  | rbr | ier | lsr | lcr | enr | dll | dlm | out | dir | rsv
  deriving DecidableEq, Repr

/-- One completed bus read: the register read and the `u8` returned to the host (R9 `BusRead`, R71). -/
structure ReadRecord where
  reg : ReadReg
  value : Byte
  deriving DecidableEq, Repr

/-- The block's state: the record of R21 field by field, then three fields of the model's own. -/
structure State where
  /-- `RBR`, the receive holding register (R22). -/
  rbr : Byte
  /-- `DR`, data ready (R23). -/
  dr : Bool
  /-- `THR`, the transmit holding register (R25). -/
  thr : Byte
  /-- `THRE`, `THR` is empty (R25). -/
  thre : Bool
  /-- `TSR`, the transmit shift register (R26). -/
  tsr : Byte
  /-- `TSR_BUSY` (R26). -/
  tsrBusy : Bool
  /-- `IER.ERBFI` (R27). -/
  erbfi : Bool
  /-- `LCR.STB` (R28). -/
  stb : Bool
  /-- `LCR.DLAB` (R28). -/
  dlab : Bool
  /-- `ENR.RXEN` (R29). -/
  rxen : Bool
  /-- `ENR.TXEN` (R29). -/
  txen : Bool
  /-- `DL`, the divisor latch (R30). -/
  dl : Half
  /-- `OUT`, the GPIO output latch (R31). -/
  out : Byte
  /-- `DIR`, the line-direction register (R32). -/
  dir : Byte
  /-- `TXD_LOG`, every byte the transmitter has finished sending, oldest first (R33). -/
  txdLog : List Byte
  /-- `REFUSED` (R33). -/
  refused : Bool
  /-- MODEL'S OWN (log entry 4): the results of bus reads, oldest first. -/
  readLog : List ReadRecord
  /-- MODEL'S OWN (log entry 7): how many resets have drawn their free values. -/
  draws : Nat
  /-- MODEL'S OWN (log entry 1): the stimuli still to come, in the total order of R57. -/
  schedule : List Word
  deriving DecidableEq, Repr

/-- The machine's faults: none. Nobody raises one, because "the block raises no synchronous exception, bus error or
fault" (R230; log entry 9). Having no constructor is safe: no claim can rest on a fault. -/
inductive Fault where
  deriving DecidableEq, Repr

/-- The machine's refusals. The spec's own refusals set `REFUSED` and go on (R9, R77; log entry 8), so no meaning
answers with one. -/
inductive Refusal where
  /-- A stimulus the model gives no meaning yet, raised only by an arm of `exec`; no arm does. Safe: the step stops. -/
  | notModelled (mnemonic : String)
  deriving DecidableEq, Repr

/-- The state of power-on reset (R252): the values of R35, with `TXD_LOG = []` and `REFUSED = 0`. `RBR`, `THR` and
`TSR` hold the free values of draw 0 (log entries 5, 6); the run fields are empty (log entries 1, 4, 7). -/
def State.reset : State :=
  { rbr := Config.rbrDraw 0
    dr := false
    thr := Config.thrDraw 0
    thre := true
    tsr := Config.tsrDraw 0
    tsrBusy := false
    erbfi := false
    stb := false
    dlab := false
    rxen := false
    txen := false
    dl := 0x0000#16
    out := 0x00#8
    dir := 0x00#8
    txdLog := []
    refused := false
    readLog := []
    draws := 1
    schedule := [] }

end Sys2Proof.Machine
end

