-- ==== Sys2Proof/Machine/Flags.lean ====
section
/-! DEFINITION. The flags and conditions that are functions of the state: TEMT (R26), IRQ (R105), receiver and
transmitter activity (R142), and the enabling conditions of the engine's events (R75). -/

namespace Sys2Proof.Machine

/-- `TEMT = THRE & ~TSR_BUSY` (R26). -/
def temt (s : State) : Bool := s.thre && !s.tsrBusy

/-- `IRQ = IER.ERBFI & DR`, the level of the interrupt-request line (R105, R231). -/
def irq (s : State) : Bool := s.erbfi && s.dr

/-- `rx_active = ENR.RXEN & (DL != 0)` (R142). -/
def rxActive (s : State) : Bool := s.rxen && s.dl != 0x0000#16

/-- `tx_active = ENR.TXEN & (DL != 0)` (R142). -/
def txActive (s : State) : Bool := s.txen && s.dl != 0x0000#16

/-- TX_LOAD is enabled: `THRE = 0 & TSR_BUSY = 0 & tx_active` (R75, R121). -/
def txLoadEnabled (s : State) : Bool := !s.thre && !s.tsrBusy && txActive s

/-- TX_DONE is enabled: `TSR_BUSY = 1 & tx_active` (R75, R122). -/
def txDoneEnabled (s : State) : Bool := s.tsrBusy && txActive s

end Sys2Proof.Machine
end

