-- ==== Sys2Proof/Machine/Operands.lean ====
section
/-! DEFINITION. The values registers read as, and how a written byte enters the divisor latch (rules R24, R27 to
R30, R51). -/

namespace Sys2Proof.Machine

/-- `LSR_value = {0b0, TEMT, THRE, 0b0000, DR}` (R24). -/
def lsrValue (s : State) : Byte :=
  (0#1 ++ BitVec.ofBool (temt s) ++ BitVec.ofBool s.thre ++ 0#4 ++ BitVec.ofBool s.dr : BitVec 8)

/-- `{0b0000000, IER.ERBFI}` (R27, R103). -/
def ierValue (s : State) : Byte := (0#7 ++ BitVec.ofBool s.erbfi : BitVec 8)

/-- `LCR_value = {DLAB, 0b000, 0b0, STB, 0b11}` (R28). -/
def lcrValue (s : State) : Byte :=
  (BitVec.ofBool s.dlab ++ 0#3 ++ 0#1 ++ BitVec.ofBool s.stb ++ 3#2 : BitVec 8)

/-- `ENR_value = {0b000000, TXEN, RXEN}` (R29). -/
def enrValue (s : State) : Byte := (0#6 ++ BitVec.ofBool s.txen ++ BitVec.ofBool s.rxen : BitVec 8)

/-- `DLL = DL[7:0]` (R30). -/
def lowByte (v : Half) : Byte := v.extractLsb' 0 8

/-- `DLM = DL[15:8]` (R30). -/
def highByte (v : Half) : Byte := v.extractLsb' 8 8

/-- `{hi, lo}`, the divisor latch made of its two bytes (R30, R51). -/
def joinBytes (hi lo : Byte) : Half := (hi ++ lo : BitVec 16)

/-- What a reserved offset reads as (R150). -/
def reservedValue : Byte := 0x00#8

end Sys2Proof.Machine
end

