-- ==== Sys2Proof/Machine/Ops.lean ====
section
/-! DEFINITION. The named updates of the state that the meanings are made of. There is no exception entry and no
return from one: the block raises none, and a host that takes its interrupt changes nothing in it (R230, R233). -/

namespace Sys2Proof.Machine

/-- A bus read returns `v` to the host (`result <- v`): the run's record of it grows (log entry 4). -/
def State.answer (s : State) (r : ReadReg) (v : Byte) : State :=
  { s with readLog := s.readLog ++ [⟨r, v⟩] }

/-- A received byte enters the holding register (R100). -/
def State.receive (s : State) (p : Byte) : State := { s with rbr := p, dr := true }

/-- `DR <- 0` (R101). -/
def State.clearDr (s : State) : State := { s with dr := false }

/-- A byte to send enters the holding register (R120). -/
def State.fillThr (s : State) (d : Byte) : State := { s with thr := d, thre := false }

/-- The engine takes the byte from the holding register (R121). -/
def State.loadTsr (s : State) : State := { s with tsr := s.thr, tsrBusy := true, thre := true }

/-- `emit TXD(TSR)`, and the frame is finished (R122). -/
def State.emitTsr (s : State) : State := { s with txdLog := s.txdLog ++ [s.tsr], tsrBusy := false }

/-- `IER.ERBFI <- b` (R104). -/
def State.setErbfi (s : State) (b : Bool) : State := { s with erbfi := b }

/-- `LCR.STB <- stb ; LCR.DLAB <- dlab` (R141). -/
def State.setLcr (s : State) (stb dlab : Bool) : State := { s with stb := stb, dlab := dlab }

/-- `ENR.RXEN <- rxen ; ENR.TXEN <- txen` (R144). -/
def State.setEnr (s : State) (rxen txen : Bool) : State := { s with rxen := rxen, txen := txen }

/-- `DL <- v` (R146, R148). -/
def State.setDl (s : State) (v : Half) : State := { s with dl := v }

/-- `OUT <- d` (R191). -/
def State.setOut (s : State) (d : Byte) : State := { s with out := d }

/-- `DIR <- d` (R193). -/
def State.setDir (s : State) (d : Byte) : State := { s with dir := d }

/-- `refuse(reason)`: `REFUSED <- 1`, and the mark stays for the rest of the run (R9, R33). -/
def State.refuse (s : State) : State := { s with refused := true }

/-- The stimuli still to come become `ws` (log entry 1). -/
def State.setSchedule (s : State) (ws : List Word) : State := { s with schedule := ws }

/-- Hardware reset (R250): every register at the value of R35, `RBR` a fresh draw, `THR` and `TSR` unspecified
(free values, log entry 6), the run records unchanged. -/
def State.hardReset (s : State) : State :=
  { s with
    rbr := Config.rbrDraw s.draws
    dr := false
    thr := Config.thrDraw s.draws
    thre := true
    tsr := Config.tsrDraw s.draws
    tsrBusy := false
    erbfi := false
    stb := false
    dlab := false
    rxen := false
    txen := false
    dl := 0x0000#16
    out := 0x00#8
    dir := 0x00#8
    draws := s.draws + 1 }

/-- The value the last bus read returned; 0 before any read. -/
def State.lastRead (s : State) : Byte := (s.readLog.getLast?.map (·.value)).getD 0

end Sys2Proof.Machine
end

