-- ==== Sys2Proof/Machine/Events.lean ====
section
/-! DEFINITION. The events of no data path: EV_RESET (spec/70_reset_and_hazards.md) and EV_RSV (R77). -/

namespace Sys2Proof.Machine

/-- EV_RESET (R250, R251). -/
def execEvReset (s : State) : Host.Outcome State Fault Refusal := .next s.hardReset

/-- EV_RSV (R77): `REFUSED <- 1` and no other state changes (log entry 8). -/
def execEvRsv (_e : EventCode) (s : State) : Host.Outcome State Fault Refusal := .next s.refuse

end Sys2Proof.Machine
end

