-- ==== Sys2Proof/Machine/Gpio.lean ====
section
/-! DEFINITION. The GPIO output latch, the direction register and the line levels (spec/44_gpio_output.md). -/

namespace Sys2Proof.Machine

/-- RD_OUT (R190): the latch, not the line levels. -/
def execRdOut (s : State) : Host.Outcome State Fault Refusal := .next (s.answer .out s.out)

/-- WR_OUT (R191): all eight latch bits in one step. -/
def execWrOut (d : Byte) (s : State) : Host.Outcome State Fault Refusal := .next (s.setOut d)

/-- RD_DIR (R192). -/
def execRdDir (s : State) : Host.Outcome State Fault Refusal := .next (s.answer .dir s.dir)

/-- WR_DIR (R193). -/
def execWrDir (d : Byte) (s : State) : Host.Outcome State Fault Refusal := .next (s.setDir d)

/-- What the block does to an output line (R194): drives it high, drives it low, or does not drive it (`z`), where
its level is not the block's to state (U13). -/
inductive LineLevel where
  | high
  | low
  | z
  deriving DecidableEq, Repr

/-- `PIN[j]` (R194). -/
def pin (s : State) (j : Fin 8) : LineLevel :=
  if s.dir.getLsbD j then (if s.out.getLsbD j then .high else .low) else .z

end Sys2Proof.Machine
end

