-- ==== Sys2Proof/Machine/LineConfig.lean ====
section
/-! DEFINITION. UART line configuration and the no-effect and reserved locations (spec/42_uart_config.md). -/

namespace Sys2Proof.Machine

/-- RD_LCR (R140). -/
def execRdLcr (s : State) : Host.Outcome State Fault Refusal := .next (s.answer .lcr (lcrValue s))

/-- WR_LCR (R141): `LCR.STB <- D[2] ; LCR.DLAB <- D[7]`, the hardwired bits ignored. -/
def execWrLcr (d : Byte) (s : State) : Host.Outcome State Fault Refusal :=
  .next (s.setLcr (d.getLsbD 2) (d.getLsbD 7))

/-- RD_ENR (R143). -/
def execRdEnr (s : State) : Host.Outcome State Fault Refusal := .next (s.answer .enr (enrValue s))

/-- WR_ENR (R144): `ENR.RXEN <- D[0] ; ENR.TXEN <- D[1]`; nothing is flushed. -/
def execWrEnr (d : Byte) (s : State) : Host.Outcome State Fault Refusal :=
  .next (s.setEnr (d.getLsbD 0) (d.getLsbD 1))

/-- RD_DLL (R145): `DR` is not touched. -/
def execRdDll (s : State) : Host.Outcome State Fault Refusal := .next (s.answer .dll (lowByte s.dl))

/-- WR_DLL (R146): `DL <- {DL[15:8], D}`. -/
def execWrDll (d : Byte) (s : State) : Host.Outcome State Fault Refusal :=
  .next (s.setDl (joinBytes (highByte s.dl) d))

/-- RD_DLM (R147). -/
def execRdDlm (s : State) : Host.Outcome State Fault Refusal := .next (s.answer .dlm (highByte s.dl))

/-- WR_DLM (R148): `DL <- {D, DL[7:0]}`. -/
def execWrDlm (d : Byte) (s : State) : Host.Outcome State Fault Refusal :=
  .next (s.setDl (joinBytes d (lowByte s.dl)))

/-- WR_LSR (R149): no effect. -/
def execWrLsr (_d : Byte) (s : State) : Host.Outcome State Fault Refusal := .next s

/-- RD_RSV (R150): returns 0x00 whatever the state and the offset. -/
def execRdRsv (_a : Offset) (s : State) : Host.Outcome State Fault Refusal := .next (s.answer .rsv reservedValue)

/-- WR_RSV (R151): no effect. -/
def execWrRsv (_a : Offset) (_d : Byte) (s : State) : Host.Outcome State Fault Refusal := .next s

end Sys2Proof.Machine
end

