-- ==== Sys2Proof/Machine/Receive.lean ====
section
/-! DEFINITION. The UART receive path: RX_FRAME, RD_RBR, RD_LSR, RD_IER, WR_IER (spec/40_uart_receive.md). -/

namespace Sys2Proof.Machine

/-- RX_FRAME (R100): the byte replaces `RBR` and sets `DR`; with the receiver inactive the frame is lost. -/
def execRxFrame (p : Byte) (s : State) : Host.Outcome State Fault Refusal :=
  if rxActive s then .next (s.receive p) else .next s

/-- RD_RBR (R101): `result <- RBR ; DR <- 0`. -/
def execRdRbr (s : State) : Host.Outcome State Fault Refusal := .next ((s.answer .rbr s.rbr).clearDr)

/-- RD_LSR (R102). -/
def execRdLsr (s : State) : Host.Outcome State Fault Refusal := .next (s.answer .lsr (lsrValue s))

/-- RD_IER (R103). -/
def execRdIer (s : State) : Host.Outcome State Fault Refusal := .next (s.answer .ier (ierValue s))

/-- WR_IER (R104): `IER.ERBFI <- D[0]`, the other bits ignored. -/
def execWrIer (d : Byte) (s : State) : Host.Outcome State Fault Refusal := .next (s.setErbfi (d.getLsbD 0))

end Sys2Proof.Machine
end

