-- ==== Sys2Proof/Machine/Transmit.lean ====
section
/-! DEFINITION. The UART transmit path: WR_THR and the transmitter engine's TX_LOAD and TX_DONE
(spec/41_uart_transmit.md). -/

namespace Sys2Proof.Machine

/-- WR_THR (R120): `THR <- D ; THRE <- 0`, replacing a byte not yet moved to `TSR`. -/
def execWrThr (d : Byte) (s : State) : Host.Outcome State Fault Refusal := .next (s.fillThr d)

/-- TX_LOAD (R121). Where it is not enabled it is no step, neither a fault nor a refusal (R78): a schedule entry
that names it there changes nothing (log entry 3). -/
def execTxLoad (s : State) : Host.Outcome State Fault Refusal :=
  if txLoadEnabled s then .next s.loadTsr else .next s

/-- TX_DONE (R122). Where it is not enabled it is no step (R78; log entry 3). -/
def execTxDone (s : State) : Host.Outcome State Fault Refusal :=
  if txDoneEnabled s then .next s.emitTsr else .next s

end Sys2Proof.Machine
end

