-- ==== Sys2Proof/Syntax.lean ====
section
/-! DEFINITION. The stimuli of spec/opcode_table.json: one constructor for each of its 25 mnemonics (rules R74, R75). -/

namespace Sys2Proof

/-- A stimulus: a host bus transaction (R71, R74) or an event (R73, R75). A bit the format ignores is no
argument: `D` of a read (R72), `P` of every event but RX_FRAME (R75). -/
inductive Instr where
  /-- RD_RBR (R101) -/
  | rdRbr
  /-- WR_THR (R120) -/
  | wrThr (d : Byte)
  /-- RD_DLL (R145) -/
  | rdDll
  /-- WR_DLL (R146) -/
  | wrDll (d : Byte)
  /-- RD_IER (R103) -/
  | rdIer
  /-- WR_IER (R104) -/
  | wrIer (d : Byte)
  /-- RD_DLM (R147) -/
  | rdDlm
  /-- WR_DLM (R148) -/
  | wrDlm (d : Byte)
  /-- RD_RSV (R150), at one of the reserved offsets -/
  | rdRsv (a : Offset)
  /-- WR_RSV (R151), at one of the reserved offsets -/
  | wrRsv (a : Offset) (d : Byte)
  /-- RD_LCR (R140) -/
  | rdLcr
  /-- WR_LCR (R141) -/
  | wrLcr (d : Byte)
  /-- RD_ENR (R143) -/
  | rdEnr
  /-- WR_ENR (R144) -/
  | wrEnr (d : Byte)
  /-- RD_LSR (R102) -/
  | rdLsr
  /-- WR_LSR (R149) -/
  | wrLsr (d : Byte)
  /-- RD_OUT (R190) -/
  | rdOut
  /-- WR_OUT (R191) -/
  | wrOut (d : Byte)
  /-- RD_DIR (R192) -/
  | rdDir
  /-- WR_DIR (R193) -/
  | wrDir (d : Byte)
  /-- EV_RESET (R250) -/
  | evReset
  /-- RX_FRAME (R100), with the byte received -/
  | rxFrame (p : Byte)
  /-- TX_LOAD (R121) -/
  | txLoad
  /-- TX_DONE (R122) -/
  | txDone
  /-- EV_RSV (R77), with its reserved event code -/
  | evRsv (e : EventCode)
  deriving DecidableEq, Repr

/-- The 25 mnemonics of the opcode map (R74, R75). -/
inductive Mnemonic where
  | RD_RBR | WR_THR | RD_DLL | WR_DLL | RD_IER | WR_IER | RD_DLM | WR_DLM | RD_RSV | WR_RSV
  | RD_LCR | WR_LCR | RD_ENR | WR_ENR | RD_LSR | WR_LSR | RD_OUT | WR_OUT | RD_DIR | WR_DIR
  | EV_RESET | RX_FRAME | TX_LOAD | TX_DONE | EV_RSV
  deriving DecidableEq, Repr

/-- The mnemonic a stimulus has in the opcode map. -/
def Instr.mnemonic : Instr → Mnemonic
  | .rdRbr => .RD_RBR
  | .wrThr _ => .WR_THR
  | .rdDll => .RD_DLL
  | .wrDll _ => .WR_DLL
  | .rdIer => .RD_IER
  | .wrIer _ => .WR_IER
  | .rdDlm => .RD_DLM
  | .wrDlm _ => .WR_DLM
  | .rdRsv _ => .RD_RSV
  | .wrRsv _ _ => .WR_RSV
  | .rdLcr => .RD_LCR
  | .wrLcr _ => .WR_LCR
  | .rdEnr => .RD_ENR
  | .wrEnr _ => .WR_ENR
  | .rdLsr => .RD_LSR
  | .wrLsr _ => .WR_LSR
  | .rdOut => .RD_OUT
  | .wrOut _ => .WR_OUT
  | .rdDir => .RD_DIR
  | .wrDir _ => .WR_DIR
  | .evReset => .EV_RESET
  | .rxFrame _ => .RX_FRAME
  | .txLoad => .TX_LOAD
  | .txDone => .TX_DONE
  | .evRsv _ => .EV_RSV

/-- The kind bit `K` of R70: is the stimulus an event? -/
def Instr.isEvent : Instr → Bool
  | .rdRbr | .wrThr _ | .rdDll | .wrDll _ | .rdIer | .wrIer _ | .rdDlm | .wrDlm _ => false
  | .rdRsv _ | .wrRsv _ _ | .rdLcr | .wrLcr _ | .rdEnr | .wrEnr _ | .rdLsr | .wrLsr _ => false
  | .rdOut | .wrOut _ | .rdDir | .wrDir _ => false
  | .evReset | .rxFrame _ | .txLoad | .txDone | .evRsv _ => true

/-- The value of `LCR.DLAB` under which the opcode map names this stimulus; `none` where either value does (R74). -/
def Instr.mode : Instr → Option Bool
  | .rdRbr | .wrThr _ | .rdIer | .wrIer _ => some false
  | .rdDll | .wrDll _ | .rdDlm | .wrDlm _ => some true
  | .rdRsv _ | .wrRsv _ _ | .rdLcr | .wrLcr _ | .rdEnr | .wrEnr _ | .rdLsr | .wrLsr _ => none
  | .rdOut | .wrOut _ | .rdDir | .wrDir _ => none
  | .evReset | .rxFrame _ | .txLoad | .txDone | .evRsv _ => none

end Sys2Proof
end

