-- ==== Sys2Proof/Machine/Dispatch.lean ====
section
/-! DEFINITION. One arm per stimulus of the opcode map. -/

namespace Sys2Proof.Machine

def exec (i : Instr) (s : State) : Host.Outcome State Fault Refusal :=
  match i with
  | .rdRbr => Sys2Proof.Machine.execRdRbr s
  | .wrThr d => Sys2Proof.Machine.execWrThr d s
  | .rdDll => Sys2Proof.Machine.execRdDll s
  | .wrDll d => Sys2Proof.Machine.execWrDll d s
  | .rdIer => Sys2Proof.Machine.execRdIer s
  | .wrIer d => Sys2Proof.Machine.execWrIer d s
  | .rdDlm => Sys2Proof.Machine.execRdDlm s
  | .wrDlm d => Sys2Proof.Machine.execWrDlm d s
  | .rdRsv a => Sys2Proof.Machine.execRdRsv a s
  | .wrRsv a d => Sys2Proof.Machine.execWrRsv a d s
  | .rdLcr => Sys2Proof.Machine.execRdLcr s
  | .wrLcr d => Sys2Proof.Machine.execWrLcr d s
  | .rdEnr => Sys2Proof.Machine.execRdEnr s
  | .wrEnr d => Sys2Proof.Machine.execWrEnr d s
  | .rdLsr => Sys2Proof.Machine.execRdLsr s
  | .wrLsr d => Sys2Proof.Machine.execWrLsr d s
  | .rdOut => Sys2Proof.Machine.execRdOut s
  | .wrOut d => Sys2Proof.Machine.execWrOut d s
  | .rdDir => Sys2Proof.Machine.execRdDir s
  | .wrDir d => Sys2Proof.Machine.execWrDir d s
  | .evReset => Sys2Proof.Machine.execEvReset s
  | .rxFrame p => Sys2Proof.Machine.execRxFrame p s
  | .txLoad => Sys2Proof.Machine.execTxLoad s
  | .txDone => Sys2Proof.Machine.execTxDone s
  | .evRsv e => Sys2Proof.Machine.execEvRsv e s

end Sys2Proof.Machine
end

