-- ==== Sys2Proof/WellFormed.lean ====
section
/-! DEFINITION. Which stimuli the encoding can express: the reserved offsets of R76, the reserved event codes
of R77, and the `LCR.DLAB` values of R74. -/

namespace Sys2Proof

/-- The reserved offsets 0x2, 0x6, 0x7 and 0xA to 0xF (R34, R76). -/
def isReservedOffset (a : Offset) : Bool :=
  a == 0x2#4 || a == 0x6#4 || a == 0x7#4 || decide (0xA#4 ≤ a)

/-- The reserved event codes 0b00100 to 0b11111 (R77). -/
def isReservedEvent (e : EventCode) : Bool := decide (0b00100#5 ≤ e)

/-- The checks on a stimulus: a reserved access names a reserved offset, a reserved event a reserved code. -/
def Instr.wf : Instr → Bool
  | .rdRsv a => isReservedOffset a
  | .wrRsv a _ => isReservedOffset a
  | .evRsv e => isReservedEvent e
  | .rdRbr | .wrThr _ | .rdDll | .wrDll _ | .rdIer | .wrIer _ | .rdDlm | .wrDlm _ => true
  | .rdLcr | .wrLcr _ | .rdEnr | .wrEnr _ | .rdLsr | .wrLsr _ => true
  | .rdOut | .wrOut _ | .rdDir | .wrDir _ => true
  | .evReset | .rxFrame _ | .txLoad | .txDone => true

/-- A well-formed stimulus. -/
abbrev Instr.WellFormed (i : Instr) : Prop := i.wf = true

/-- The stimulus is one the opcode map names while `LCR.DLAB` has this value (R74). -/
def Instr.fits (dlab : Bool) (i : Instr) : Bool :=
  match i.mode with
  | none => true
  | some b => b == dlab

end Sys2Proof
end

