-- ==== Sys2Proof/Decode.lean ====
section
/-! DEFINITION. Decoding and encoding of stimulus words (rules R70 to R77) and the opcode map as a table. -/

namespace Sys2Proof

/-! ### The fields of a stimulus word -/

/-- `K`, bit 13 (R70): true for an event. -/
def Word.kind (w : Word) : Bool := w.getLsbD 13

/-- `W`, bit 12 of a host transaction (R71): true for a write. -/
def Word.isWrite (w : Word) : Bool := w.getLsbD 12

/-- `A`, bits 11:8 of a host transaction (R71). -/
def Word.offset (w : Word) : Offset := w.extractLsb' 8 4

/-- `E`, bits 12:8 of an event (R73). -/
def Word.event (w : Word) : EventCode := w.extractLsb' 8 5

/-- `D` (R71) or `P` (R73), bits 7:0. -/
def Word.data (w : Word) : Byte := w.extractLsb' 0 8

/-- The word `{0, W, A, D}` of a host transaction (R71). -/
def busWord (write : Bool) (a : Offset) (d : Byte) : Word := (0#1 ++ BitVec.ofBool write ++ a ++ d : BitVec 14)

/-- The word `{1, E, P}` of an event (R73). -/
def eventWord (e : EventCode) (p : Byte) : Word := (1#1 ++ e ++ p : BitVec 14)

/-! ### Decoding -/

/-- A host read (R74, rows with W = 0): `D` is ignored (R72). -/
def decodeRead (dlab : Bool) (a : Offset) : Instr :=
  match a.toNat with
  | 0x0 => if dlab then .rdDll else .rdRbr
  | 0x1 => if dlab then .rdDlm else .rdIer
  | 0x3 => .rdLcr
  | 0x4 => .rdEnr
  | 0x5 => .rdLsr
  | 0x8 => .rdOut
  | 0x9 => .rdDir
  | _ => .rdRsv a

/-- A host write (R74, rows with W = 1). -/
def decodeWrite (dlab : Bool) (a : Offset) (d : Byte) : Instr :=
  match a.toNat with
  | 0x0 => if dlab then .wrDll d else .wrThr d
  | 0x1 => if dlab then .wrDlm d else .wrIer d
  | 0x3 => .wrLcr d
  | 0x4 => .wrEnr d
  | 0x5 => .wrLsr d
  | 0x8 => .wrOut d
  | 0x9 => .wrDir d
  | _ => .wrRsv a d

/-- An event (R75), by its code alone; codes from 0b00100 up are EV_RSV (R77). -/
def decodeEvent (e : EventCode) (p : Byte) : Instr :=
  match e.toNat with
  | 0 => .evReset
  | 1 => .rxFrame p
  | 2 => .txLoad
  | 3 => .txDone
  | _ => .evRsv e

/-- The stimulus a word names while `LCR.DLAB` is `dlab` (R70, R74, R75). Every word names one. -/
def decode (dlab : Bool) (w : Word) : Instr :=
  if w.kind then decodeEvent w.event w.data
  else if w.isWrite then decodeWrite dlab w.offset w.data
  else decodeRead dlab w.offset

/-- Why a number is no stimulus word. -/
inductive DecodeError where
  /-- It has a bit above bit 13, and every stimulus has exactly 14 bits (R70). -/
  | widerThanStimulus
  deriving DecidableEq, Repr

/-- Decoding of any number as a stimulus: total, rejecting by name what is no 14-bit word. -/
def decodeNumber (dlab : Bool) (w : Nat) : Except DecodeError Instr :=
  if w < 2 ^ 14 then .ok (decode dlab (BitVec.ofNat 14 w)) else .error .widerThanStimulus

/-- The stimulus a row's word names at `LCR.DLAB = 0`, the mode after reset (R35; log entry 10): the
opcode table's numbering carries no mode, so the four rows of mode DLAB = 1 read as their DLAB = 0 twins. -/
def decodeTableWord (_nbits w : Nat) : Option Instr :=
  match decodeNumber false w with
  | .ok i => some i
  | .error _ => none

/-! ### Encoding -/

/-- The word of a stimulus; ignored bits are 0, the canonical encoding of R72. -/
def encode : Instr → Word
  | .rdRbr => busWord false 0x0#4 0
  | .wrThr d => busWord true 0x0#4 d
  | .rdDll => busWord false 0x0#4 0
  | .wrDll d => busWord true 0x0#4 d
  | .rdIer => busWord false 0x1#4 0
  | .wrIer d => busWord true 0x1#4 d
  | .rdDlm => busWord false 0x1#4 0
  | .wrDlm d => busWord true 0x1#4 d
  | .rdRsv a => busWord false a 0
  | .wrRsv a d => busWord true a d
  | .rdLcr => busWord false 0x3#4 0
  | .wrLcr d => busWord true 0x3#4 d
  | .rdEnr => busWord false 0x4#4 0
  | .wrEnr d => busWord true 0x4#4 d
  | .rdLsr => busWord false 0x5#4 0
  | .wrLsr d => busWord true 0x5#4 d
  | .rdOut => busWord false 0x8#4 0
  | .wrOut d => busWord true 0x8#4 d
  | .rdDir => busWord false 0x9#4 0
  | .wrDir d => busWord true 0x9#4 d
  | .evReset => eventWord 0b00000#5 0
  | .rxFrame p => eventWord 0b00001#5 p
  | .txLoad => eventWord 0b00010#5 0
  | .txDone => eventWord 0b00011#5 0
  | .evRsv e => eventWord e 0

/-! ### The opcode map as a table -/

/-- One row of the opcode map: its mnemonic, the `LCR.DLAB` it needs (`none`: either), match and mask. -/
structure OpcodeRow where
  mnemonic : Mnemonic
  dlab : Option Bool
  bits : Word
  mask : Word
  deriving DecidableEq, Repr

/-- Does the row name this word in this mode? -/
def OpcodeRow.admits (r : OpcodeRow) (dlab : Bool) (w : Word) : Bool :=
  (match r.dlab with
   | none => true
   | some b => b == dlab) && (w &&& r.mask) == r.bits

/-- The host-transaction rows of R74, offsets 0x0 to 0x5. -/
def lowBusRows : List OpcodeRow :=
  [⟨.RD_RBR, some false, 0x0000#14, 0x3F00#14⟩, ⟨.WR_THR, some false, 0x1000#14, 0x3F00#14⟩,
   ⟨.RD_DLL, some true, 0x0000#14, 0x3F00#14⟩, ⟨.WR_DLL, some true, 0x1000#14, 0x3F00#14⟩,
   ⟨.RD_IER, some false, 0x0100#14, 0x3F00#14⟩, ⟨.WR_IER, some false, 0x1100#14, 0x3F00#14⟩,
   ⟨.RD_DLM, some true, 0x0100#14, 0x3F00#14⟩, ⟨.WR_DLM, some true, 0x1100#14, 0x3F00#14⟩,
   ⟨.RD_RSV, none, 0x0200#14, 0x3F00#14⟩, ⟨.WR_RSV, none, 0x1200#14, 0x3F00#14⟩,
   ⟨.RD_LCR, none, 0x0300#14, 0x3F00#14⟩, ⟨.WR_LCR, none, 0x1300#14, 0x3F00#14⟩,
   ⟨.RD_ENR, none, 0x0400#14, 0x3F00#14⟩, ⟨.WR_ENR, none, 0x1400#14, 0x3F00#14⟩,
   ⟨.RD_LSR, none, 0x0500#14, 0x3F00#14⟩, ⟨.WR_LSR, none, 0x1500#14, 0x3F00#14⟩]

/-- The host-transaction rows of R74, offsets 0x6 to 0xF. -/
def highBusRows : List OpcodeRow :=
  [⟨.RD_RSV, none, 0x0600#14, 0x3E00#14⟩, ⟨.WR_RSV, none, 0x1600#14, 0x3E00#14⟩,
   ⟨.RD_OUT, none, 0x0800#14, 0x3F00#14⟩, ⟨.WR_OUT, none, 0x1800#14, 0x3F00#14⟩,
   ⟨.RD_DIR, none, 0x0900#14, 0x3F00#14⟩, ⟨.WR_DIR, none, 0x1900#14, 0x3F00#14⟩,
   ⟨.RD_RSV, none, 0x0A00#14, 0x3E00#14⟩, ⟨.WR_RSV, none, 0x1A00#14, 0x3E00#14⟩,
   ⟨.RD_RSV, none, 0x0C00#14, 0x3C00#14⟩, ⟨.WR_RSV, none, 0x1C00#14, 0x3C00#14⟩]

/-- The event rows of R75. -/
def eventRows : List OpcodeRow :=
  [⟨.EV_RESET, none, 0x2000#14, 0x3F00#14⟩, ⟨.RX_FRAME, none, 0x2100#14, 0x3F00#14⟩,
   ⟨.TX_LOAD, none, 0x2200#14, 0x3F00#14⟩, ⟨.TX_DONE, none, 0x2300#14, 0x3F00#14⟩,
   ⟨.EV_RSV, none, 0x2400#14, 0x3C00#14⟩, ⟨.EV_RSV, none, 0x2800#14, 0x3800#14⟩,
   ⟨.EV_RSV, none, 0x3000#14, 0x3000#14⟩]

/-- The 33 rows of the opcode map, R74 then R75. -/
def opcodeTable : List OpcodeRow := lowBusRows ++ highBusRows ++ eventRows

end Sys2Proof
end

