-- ==== Sys2Proof/Machine/Fetch.lean ====
section
/-! DEFINITION. Which stimulus comes next. The block has no program counter and fetches nothing (R20, R59): the
next step is the first stimulus of the schedule (R57), and when none is left only the internal transmitter
engine can still move (R4(3), R123; log entries 1, 2). -/

namespace Sys2Proof.Machine

/-- The event the transmitter engine takes when no other agent acts: TX_LOAD or TX_DONE, whichever is enabled.
They are never both enabled (R75). -/
def engineStimulus (s : State) : Option Word :=
  if txLoadEnabled s then some (encode .txLoad)
  else if txDoneEnabled s then some (encode .txDone)
  else none

/-- The next stimulus and the state in which it runs; `none` when no agent has a step. -/
def nextStimulus (s : State) : Option (Word × State) :=
  match s.schedule with
  | w :: ws => some (w, s.setSchedule ws)
  | [] => (engineStimulus s).map fun w => (w, s)

/-- The state with a stimulus placed before all others; a number that is no 14-bit word places nothing (R70). -/
def placeStimulus (w : Nat) (s : State) : State :=
  if w < 2 ^ 14 then s.setSchedule (BitVec.ofNat 14 w :: s.schedule) else s

end Sys2Proof.Machine
end

