-- ==== Sys2Proof/Machine/Step.lean ====
section
/-! DEFINITION. One step of the block: the next stimulus, decoded in the mode it finds, runs as one atomic step (R56,
R57, R74). -/

namespace Sys2Proof.Machine

/-- One step. With no agent able to move, nothing changes (R20; log entry 2). -/
def step (s : State) : Host.Outcome State Fault Refusal :=
  match nextStimulus s with
  | none => .next s
  | some (w, t) => exec (decode t.dlab w) t

/-- The state with the stimulus `w` placed where `step` takes its next one (log entry 11). -/
def State.withFetchWord (s : State) (_nbits w : Nat) : State := placeStimulus w s

end Sys2Proof.Machine
end

