-- ==== Sys2Proof/Machine/Assembler.lean ====
section
/-! DEFINITION. The assembler syntax of one stimulus (rule R79; log entry 16). Text is a list of characters. -/

namespace Sys2Proof.Machine

/-- A register name of the assembler (R79). -/
inductive AsmReg where
  | rbr | thr | dll | ier | dlm | lcr | enr | lsr | out | dir
  deriving DecidableEq, Repr

/-- The offset a name stands for; the name chooses only the offset (R79). -/
def AsmReg.offset : AsmReg → Offset
  | .rbr | .thr | .dll => 0x0#4
  | .ier | .dlm => 0x1#4
  | .lcr => 0x3#4
  | .enr => 0x4#4
  | .lsr => 0x5#4
  | .out => 0x8#4
  | .dir => 0x9#4

/-- May `rd` name it? (R79) -/
def AsmReg.readable : AsmReg → Bool
  | .thr => false
  | .rbr | .dll | .ier | .dlm | .lcr | .enr | .lsr | .out | .dir => true

/-- May `wr` name it? (R79) -/
def AsmReg.writable : AsmReg → Bool
  | .rbr => false
  | .thr | .dll | .ier | .dlm | .lcr | .enr | .lsr | .out | .dir => true

/-- One stimulus as the assembler names it (R79). -/
inductive AsmLine where
  | rd (a : Offset)
  | wr (a : Offset) (imm : Byte)
  | evReset
  | evRx (imm : Byte)
  | evTxload
  | evTxdone
  deriving DecidableEq, Repr

/-- The word of a line (R79). -/
def AsmLine.word : AsmLine → Word
  | .rd a => busWord false a 0
  | .wr a imm => busWord true a imm
  | .evReset => 0x2000#14
  | .evRx imm => 0x2100#14 + imm.zeroExtend 14
  | .evTxload => 0x2200#14
  | .evTxdone => 0x2300#14

/-- Assembly errors. -/
inductive AsmError where
  /-- the line has none of the forms of R79 -/
  | unknownForm
  /-- the operand is no register the form may name, and no `@` offset 0x0 to 0xF -/
  | badRegister
  /-- the value is no number 0 to 255 -/
  | badImmediate
  deriving DecidableEq, Repr

/-- The value of a digit. -/
def digitValue (c : Char) : Option Nat :=
  if '0' ≤ c ∧ c ≤ '9' then some (c.toNat - '0'.toNat)
  else if 'a' ≤ c ∧ c ≤ 'f' then some (c.toNat - 'a'.toNat + 10)
  else if 'A' ≤ c ∧ c ≤ 'F' then some (c.toNat - 'A'.toNat + 10)
  else none

/-- A number read digit by digit. -/
def readDigits (radix : Nat) (acc : Nat) : List Char → Option Nat
  | [] => some acc
  | c :: cs =>
    match digitValue c with
    | some v => if v < radix then readDigits radix (acc * radix + v) cs else none
    | none => none

/-- A number, in decimal, `0x` hexadecimal or `0b` binary (R79). -/
def parseNumber : List Char → Option Nat
  | [] => none
  | ['0'] => some 0
  | '0' :: c :: cs =>
    if c = 'x' then (if cs.isEmpty then none else readDigits 16 0 cs)
    else if c = 'b' then (if cs.isEmpty then none else readDigits 2 0 cs)
    else readDigits 10 0 (c :: cs)
  | cs => readDigits 10 0 cs

/-- `<imm8>`: a number 0 to 255; any other value is an assembly error (R79). -/
def parseImm (cs : List Char) : Except AsmError Byte :=
  match parseNumber cs with
  | some n => if n < 256 then .ok (BitVec.ofNat 8 n) else .error .badImmediate
  | none => .error .badImmediate

/-- The register names (R79). -/
def regNames : List (List Char × AsmReg) :=
  [(['R', 'B', 'R'], .rbr), (['T', 'H', 'R'], .thr), (['D', 'L', 'L'], .dll), (['I', 'E', 'R'], .ier),
   (['D', 'L', 'M'], .dlm), (['L', 'C', 'R'], .lcr), (['E', 'N', 'R'], .enr), (['L', 'S', 'R'], .lsr),
   (['O', 'U', 'T'], .out), (['D', 'I', 'R'], .dir)]

/-- `<reg>` or `@<off>`, where the form admits the register (R79). -/
def parseOffset (ok : AsmReg → Bool) : List Char → Except AsmError Offset
  | '@' :: cs =>
    match parseNumber cs with
    | some n => if n < 16 then .ok (BitVec.ofNat 4 n) else .error .badRegister
    | none => .error .badRegister
  | cs =>
    match regNames.find? fun e => e.1 == cs with
    | some e => if ok e.2 then .ok e.2.offset else .error .badRegister
    | none => .error .badRegister

/-- The tokens of a line: words and commas, up to the `#` that starts a comment (R79). `cur` is the word being
read, last character first. -/
def tokens (cur : List Char) : List Char → List (List Char)
  | [] => if cur.isEmpty then [] else [cur.reverse]
  | c :: cs =>
    if c = '#' then (if cur.isEmpty then [] else [cur.reverse])
    else if c = ' ' ∨ c = '\t' then (if cur.isEmpty then tokens [] cs else cur.reverse :: tokens [] cs)
    else if c = ',' then (if cur.isEmpty then [','] :: tokens [] cs else cur.reverse :: [','] :: tokens [] cs)
    else tokens (c :: cur) cs

/-- The forms of R79 over the tokens of a line; `none` for a line with no stimulus. -/
def parseTokens : List (List Char) → Except AsmError (Option AsmLine)
  | [] => .ok none
  | [k, x] =>
    if k = ['r', 'd'] then (parseOffset AsmReg.readable x).map fun a => some (.rd a)
    else if k ≠ ['e', 'v'] then .error .unknownForm
    else if x = ['r', 'e', 's', 'e', 't'] then .ok (some .evReset)
    else if x = ['t', 'x', 'l', 'o', 'a', 'd'] then .ok (some .evTxload)
    else if x = ['t', 'x', 'd', 'o', 'n', 'e'] then .ok (some .evTxdone)
    else .error .unknownForm
  | [k, x, y] =>
    if k = ['e', 'v'] ∧ x = ['r', 'x'] then (parseImm y).map fun v => some (.evRx v)
    else .error .unknownForm
  | [k, x, y, z] =>
    if k = ['w', 'r'] ∧ y = [','] then
      match parseOffset AsmReg.writable x with
      | .ok a => (parseImm z).map fun v => some (.wr a v)
      | .error e => .error e
    else if x = ['<', '-'] ∧ y = ['r', 'd'] then (parseOffset AsmReg.readable z).map fun a => some (.rd a)
    else .error .unknownForm
  | _ => .error .unknownForm

/-- A line of assembler text (R79). -/
def parseLine (cs : List Char) : Except AsmError (Option AsmLine) := parseTokens (tokens [] cs)

/-- The word a line of text assembles to; `none` for a blank or comment line. -/
def assemble (cs : List Char) : Except AsmError (Option Word) :=
  (parseLine cs).map fun l => l.map AsmLine.word

end Sys2Proof.Machine
end

