-- ==== Sys2Proof/Machine/CommandDecode.lean ====
section
/-! DEFINITION. The command-decode policy, the contract of the host's software (spec/45_command_decode.md). -/

namespace Sys2Proof.Machine

/-- `inv(p)` (R214). -/
def polarityInverts : Polarity → Bool
  | .activeHigh => false
  | .activeLow => true

/-- `v` with bit `j` replaced by `b`. -/
def putBit (v : Byte) (j : Fin 8) (b : Bool) : Byte :=
  if b then v ||| (1#8 <<< j.val) else v &&& ~~~(1#8 <<< j.val)

/-- One entry of the table writes its line: `new[j] <- cmd[b] ^ inv(p)` (R214). -/
def applyEntry (cmd new : Byte) (e : MapEntry) : Byte :=
  putBit new e.line (Bool.xor (cmd.getLsbD e.bit) (polarityInverts e.polarity))

/-- `decode(MAP, cmd, old)` (R214). -/
def decodeCommand (map : DecodeMap) (cmd old : Byte) : Byte := map.foldl (applyEntry cmd) old

/-- `mask(MAP)`, the mapped lines (R214). -/
def mapMask (map : DecodeMap) : Byte := map.foldr (fun e m => (1#8 <<< e.line.val) ||| m) 0#8

/-- No two entries share a line and no two share a bit (R211). -/
def mapWf (map : DecodeMap) : Bool :=
  decide (map.map (·.line)).Nodup && decide (map.map (·.bit)).Nodup

/-- Taking a table as the configuration: an ill-formed one marks the run refused (R211). -/
def configureMap (map : DecodeMap) (s : State) : State := if mapWf map then s else s.refuse

/-- The variant-1 entries of the given lines, `(j, j, ACTIVE_HIGH)` (R212). -/
def directMap (lines : List (Fin 8)) : DecodeMap := lines.map fun j => ⟨j, j, .activeHigh⟩

/-- The full variant-1 table (R212). -/
def fullDirectMap : DecodeMap := directMap [0, 1, 2, 3, 4, 5, 6, 7]

/-- `MAP_V1_EX` (R212). -/
def mapV1Example : DecodeMap := directMap [0, 1, 2]

/-- `MAP_V2_EX` (R213). -/
def mapV2Example : DecodeMap := [⟨0, 0, .activeLow⟩, ⟨1, 1, .activeHigh⟩, ⟨2, 2, .activeHigh⟩]

end Sys2Proof.Machine
end

