-- ==== Sys2Proof/Machine/Divisor.lean ====
section
/-! DEFINITION. The baud-rate divisor calculator: pure functions of the reference clock, the rate and the latch
(spec/43_divisor_calc.md). No step of the block calls them (R174, R176). `F_REF` is positive where it is configured
(`Config.Params`); the functions answer at 0 too (log entry 12). -/

namespace Sys2Proof.Machine

/-- `clamp(q, lo, hi)` (R172). -/
def clamp (q lo hi : Nat) : Nat := if q < lo then lo else if hi < q then hi else q

/-- The quotient before clamping, rounded as `DIV_ROUNDING` says (R170, R171). -/
def roundedQuotient (m : Rounding) (fRef rate : Nat) : Nat :=
  match m with
  | .floor => fRef / (16 * rate)
  | .nearest => (fRef + 8 * rate) / (16 * rate)

/-- `div_calc(F_REF, rate)` (R170); `none` where it refuses, at rate 0 (R173). -/
def divCalc (m : Rounding) (fRef rate : Nat) : Option Half :=
  if rate = 0 then none else some (BitVec.ofNat 16 (clamp (roundedQuotient m fRef rate) 1 65535))

/-- `actual_rate(F_REF, DL)` in symbols per second, exact; `none` when the baud generator is stopped (R174). -/
def actualRate (fRef : Nat) (dl : Half) : Option Rat :=
  if dl = 0x0000#16 then none else some ((fRef : Rat) / (16 * (dl.toNat : Rat)))

/-- `rate_error(F_REF, rate)`, exact; `none` at rate 0 (R175). -/
def rateError (m : Rounding) (fRef rate : Nat) : Option Rat :=
  ((divCalc m fRef rate).bind (actualRate fRef)).map fun a => (a - (rate : Rat)) / (rate : Rat)

/-- `exact(F_REF, rate)` (R175). At rate 0 the spec's `mod` and `div` have no value; DESIGN CHOICE (log entry 25): the
answer there is false. -/
def exactRate (fRef rate : Nat) : Bool :=
  fRef % (16 * rate) == 0 && decide (1 ≤ fRef / (16 * rate)) && decide (fRef / (16 * rate) ≤ 65535)

/-- The rate the block runs at now (R30, R174). -/
def currentRate (fRef : Nat) (s : State) : Option Rat := actualRate fRef s.dl

/-- Asking the calculator for a divisor as part of a configuration: rate 0 marks the run refused (R173). -/
def configureRate (m : Rounding) (fRef rate : Nat) (s : State) : Option Half × State :=
  match divCalc m fRef rate with
  | some d => (some d, s)
  | none => (none, s.refuse)

end Sys2Proof.Machine
end

