-- ==== Sys2Proof/Machine/Runs.lean ====
section
/-! DEFINITION. Many stimuli in a row: decoded lists of them, words delivered to the block, and the rows' enabling
conditions (rules R56, R57, R75, R78). -/

namespace Sys2Proof.Machine

/-- The enabling condition of R75: host transactions, EV_RESET and RX_FRAME always (R78); EV_RSV is refused, not
disabled (R77). -/
def enabled (i : Instr) (s : State) : Bool :=
  match i with
  | .txLoad => txLoadEnabled s
  | .txDone => txDoneEnabled s
  | .rdRbr | .wrThr _ | .rdDll | .wrDll _ | .rdIer | .wrIer _ | .rdDlm | .wrDlm _ => true
  | .rdRsv _ | .wrRsv _ _ | .rdLcr | .wrLcr _ | .rdEnr | .wrEnr _ | .rdLsr | .wrLsr _ => true
  | .rdOut | .wrOut _ | .rdDir | .wrDir _ => true
  | .evReset | .rxFrame _ | .evRsv _ => true

/-- The state after a stimulus; a stimulus that stopped would leave the state as it was (none stops). -/
def after (i : Instr) (s : State) : State :=
  match exec i s with
  | .next t => t
  | .fault _ => s
  | .refused _ => s

/-- The state after a list of stimuli. -/
def afterAll (is : List Instr) (s : State) : State := is.foldl (fun t i => after i t) s

/-- One stimulus word reaches the block: it is decoded in the mode it finds (R74) and runs. -/
def deliver (w : Word) (s : State) : State := after (decode s.dlab w) s

/-- The state after a list of stimulus words. -/
def deliverAll (ws : List Word) (s : State) : State := ws.foldl (fun t w => deliver w t) s

/-- The bytes in the transmitter, the older first: the one being sent, then the one waiting (R25, R26). -/
def pendingTx (s : State) : List Byte :=
  (bif s.tsrBusy then [s.tsr] else []) ++ (bif s.thre then [] else [s.thr])

/-- What reads of one register have returned, in order. -/
def readsOf (r : ReadReg) (s : State) : List Byte :=
  (s.readLog.filter fun e => e.reg == r).map (·.value)

end Sys2Proof.Machine
end

