-- ==== Sys2Proof/Machine/HostBus.lean ====
section
/-! DEFINITION. The host's side of the bus: accesses at bus addresses, of any width (rules R9, R50, R51, R52). -/

namespace Sys2Proof.Machine

/-- A host access as the host's bus sees it. -/
structure BusAccess where
  write : Bool
  /-- the width in bits -/
  bits : Nat
  address : Nat
  /-- the datum of an 8-bit write; ignored by a read (R72) -/
  data : Byte := 0
  deriving DecidableEq, Repr

/-- Does a bus address lie in `BASE .. BASE + 15` (R50)? -/
def reachesBlock (base address : Nat) : Bool := decide (base ≤ address) && decide (address < base + 16)

/-- A host access (R50, R52): outside the window the block receives no transaction, any width but 8 bits is refused,
and an 8-bit access is the stimulus of R71. -/
def busAccess (base : Nat) (a : BusAccess) (s : State) : State :=
  if reachesBlock base a.address then
    if a.bits = 8 then deliver (busWord a.write (BitVec.ofNat 4 (a.address - base)) a.data) s
    else s.refuse
  else s

/-- `BusRead(off)` (R9): the byte returned, and the state after. -/
def busRead (a : Offset) (s : State) : Byte × State :=
  ((deliver (busWord false a 0) s).lastRead, deliver (busWord false a 0) s)

/-- `BusWrite(off, v)` (R9). -/
def busWrite (a : Offset) (v : Byte) (s : State) : State := deliver (busWord true a v) s

end Sys2Proof.Machine
end

