-- ==== Sys2Proof/Machine/HostProgram.lean ====
section
/-! DEFINITION. Host programs over the block's registers, the contract of the surrounding software (rules R80, R216,
R217, R253; log entry 13), and what their next action does. They are no part of State: the host is outside the
block (R3). -/

namespace Sys2Proof.Machine

/-- A host program: bus transactions in order, with the host's own computation between them. -/
inductive HostProg where
  /-- nothing more to do -/
  | done
  /-- the configuration is refused (R173, R211) -/
  | refuse
  /-- `v <- rd off`, then what the program does with `v` -/
  | read (a : Offset) (k : Byte → HostProg)
  /-- `wr off, v` -/
  | write (a : Offset) (v : Byte) (k : HostProg)
  /-- `loop { s <- rd off } until s[bit] = 1` -/
  | poll (a : Offset) (bit : Fin 8) (k : HostProg)
  /-- the host enables its own interrupts (R253 step 5); no stimulus of the block -/
  | enableInterrupts (k : HostProg)

/-- Register offsets the programs use (R34, R79). -/
def offThr : Offset := 0x0#4
def offRbr : Offset := 0x0#4
def offDll : Offset := 0x0#4
def offIer : Offset := 0x1#4
def offDlm : Offset := 0x1#4
def offLcr : Offset := 0x3#4
def offEnr : Offset := 0x4#4
def offLsr : Offset := 0x5#4
def offOut : Offset := 0x8#4
def offDir : Offset := 0x9#4

/-- `setdiv v16, lcr8` (R80). The spec requires `lcr8[7] = 0`. DESIGN CHOICE (log entry 29): with `lcr8[7] = 1` the macro
expands all the same and leaves `DLAB = 1`. -/
def setdiv (v : Half) (lcr : Byte) (k : HostProg) : HostProg :=
  .write offLcr (lcr ||| 0x80#8) (.write offDll (lowByte v) (.write offDlm (highByte v) (.write offLcr lcr k)))

/-- The LCR value `init` leaves behind: `0x03 | (stb << 2)` (R80). -/
def lcrFor (b : StopBits) : Byte :=
  match b with
  | .one => 0x03#8
  | .two => 0x07#8

/-- `init rate`, the source's `initialize` (R80); rate 0 is refused (R173). -/
def initialise (p : Config.Params) (rate : Nat) (k : HostProg) : HostProg :=
  match divCalc p.rounding p.fRef rate with
  | none => .refuse
  | some d => setdiv d (lcrFor p.stopBits) (.write offEnr 0x03#8 k)

/-- `rxbyte -> c`, the source's `receive_byte` (R80). -/
def rxbyte (k : Byte → HostProg) : HostProg := .poll offLsr 0 (.read offRbr k)

/-- `txbyte b`, the source's `transmit_byte` (R80). -/
def txbyte (b : Byte) (k : HostProg) : HostProg := .poll offLsr 5 (.write offThr b k)

/-- `txstr s`, the source's `send_string`: the bytes, then 0x0A and 0x0D (R80, D35). -/
def txstr (bs : List Byte) (k : HostProg) : HostProg := (bs ++ [0x0A#8, 0x0D#8]).foldr txbyte k

/-- `setline j, v` (R80). -/
def setline (j : Fin 8) (v : Bool) (k : HostProg) : HostProg :=
  .read offOut fun o => .write offOut (putBit o j v) k

/-- `setdir j, v` (R80). -/
def setdir (j : Fin 8) (v : Bool) (k : HostProg) : HostProg :=
  .read offDir fun d => .write offDir (putBit d j v) k

/-- The handler `on_byte_received` (R216); an ill-formed table is refused (R211). -/
def handler (map : DecodeMap) (k : HostProg) : HostProg :=
  if mapWf map then rxbyte fun c => .read offOut fun o => .write offOut (decodeCommand map c o) k
  else .refuse

/-- Does the host take the interrupt, or does it poll (R217)? -/
inductive HostVariant where
  | interrupt
  | blocking
  deriving DecidableEq, Repr

/-- The operations of the host's software, by name: those the source gives (R80), the handler (R216), and the other
steps of the boot (R253). -/
inductive HostOp where
  | initialise (rate : Nat)
  | receiveByte
  | transmitByte (b : Byte)
  | sendString (bs : List Byte)
  | setLine (j : Fin 8) (v : Bool)
  | setDirection (j : Fin 8) (v : Bool)
  /-- `on_byte_received` (R216); begun by the main thread it is a call of the handler's text there, and not an invocation
  of the decoder (log entry 28) -/
  | onByteReceived
  /-- `wr OUT, v` (R253 step 1) -/
  | writeLatch (v : Byte)
  /-- `wr DIR, v` (R253 step 2) -/
  | writeDirections (v : Byte)
  /-- `wr IER, 0x01` (R253 step 4) -/
  | enableReceiveIrq
  /-- the host enables its own interrupts (R253 step 5) -/
  | enableInterrupts
  /-- the configuration has an ill-formed table (R211) -/
  | refuseConfiguration
  deriving DecidableEq, Repr

/-- An operation's program; the byte `receiveByte` returns is in the block's read log. -/
def HostOp.program (p : Config.Params) (k : HostProg) : HostOp → HostProg
  | .initialise rate => Sys2Proof.Machine.initialise p rate k
  | .receiveByte => rxbyte fun _ => k
  | .transmitByte b => txbyte b k
  | .sendString bs => txstr bs k
  | .setLine j v => setline j v k
  | .setDirection j v => setdir j v k
  | .onByteReceived => handler p.map k
  | .writeLatch v => .write offOut v k
  | .writeDirections v => .write offDir v k
  | .enableReceiveIrq => .write offIer 0x01#8 k
  | .enableInterrupts => .enableInterrupts k
  | .refuseConfiguration => .refuse

/-- Does the operation transmit or receive (R5(d))? -/
def HostOp.usesLine : HostOp → Bool
  | .receiveByte | .transmitByte _ | .sendString _ | .onByteReceived => true
  | .initialise _ | .setLine _ _ | .setDirection _ _ | .writeLatch _ | .writeDirections _ => false
  | .enableReceiveIrq | .enableInterrupts | .refuseConfiguration => false

/-- Is the operation `initialize` (R5(d))? -/
def HostOp.isInitialise : HostOp → Bool
  | .initialise _ => true
  | .receiveByte | .transmitByte _ | .sendString _ | .onByteReceived => false
  | .setLine _ _ | .setDirection _ _ | .writeLatch _ | .writeDirections _ => false
  | .enableReceiveIrq | .enableInterrupts | .refuseConfiguration => false

/-! ### The boot (R253) -/

/-- The steps of the boot, 1 to 5 (R253). -/
inductive BootStep where
  | latch
  | directions
  | initialise
  | receiveIrq
  | hostInterrupts
  deriving DecidableEq, Repr

/-- The order R253 gives. -/
def defaultBootOrder : List BootStep := [.latch, .directions, .initialise, .receiveIrq, .hostInterrupts]

/-- The orders R253 admits: steps 1 and 2 may come after steps 3 and 4, but not after step 5. DEDUCED (log entry 26):
each of the two may come later than the other, so step 1 stays before step 2, step 3 before step 4, and step 5 is
last. -/
def bootOrders : List (List BootStep) :=
  [defaultBootOrder,
   [.latch, .initialise, .directions, .receiveIrq, .hostInterrupts],
   [.latch, .initialise, .receiveIrq, .directions, .hostInterrupts],
   [.initialise, .latch, .directions, .receiveIrq, .hostInterrupts],
   [.initialise, .latch, .receiveIrq, .directions, .hostInterrupts],
   [.initialise, .receiveIrq, .latch, .directions, .hostInterrupts]]

/-- The operations of a boot step; step 4 is skipped in the blocking variant (R253, R217). -/
def BootStep.ops (v : HostVariant) (p : Config.Params) : BootStep → List HostOp
  | .latch => [.writeLatch p.outInit]
  | .directions => [.writeDirections (mapMask p.map)]
  | .initialise => [.initialise Config.refRate]
  | .receiveIrq =>
    match v with
    | .interrupt => [.enableReceiveIrq]
    | .blocking => []
  | .hostInterrupts => [.enableInterrupts]

/-- The boot in an order of R253; an ill-formed table is refused (R211; log entry 14). -/
def boot (v : HostVariant) (order : List BootStep) (p : Config.Params) : List HostOp :=
  if mapWf p.map then order.flatMap (BootStep.ops v p) else [.refuseConfiguration]

/-! ### The next action of a program -/

/-- Is there nothing more to do? -/
def HostProg.isDone : HostProg → Bool
  | .done => true
  | .refuse | .read _ _ | .write _ _ _ | .poll _ _ _ | .enableInterrupts _ => false

/-- Is the configuration refused here (R173, R211)? -/
def HostProg.refuses : HostProg → Bool
  | .refuse => true
  | .done | .read _ _ | .write _ _ _ | .poll _ _ _ | .enableInterrupts _ => false

/-- Is the next action a write of this offset? -/
def HostProg.writesTo (b : Offset) : HostProg → Bool
  | .write a _ _ => a == b
  | .done | .refuse | .read _ _ | .poll _ _ _ | .enableInterrupts _ => false

/-- Does the next action enable the host's interrupts? -/
def HostProg.enables : HostProg → Bool
  | .enableInterrupts _ => true
  | .done | .refuse | .read _ _ | .write _ _ _ | .poll _ _ _ => false

/-- What the next action, one bus transaction at most, does to the block. -/
def HostProg.effect (s : State) : HostProg → State
  | .done | .enableInterrupts _ => s
  | .refuse => s.refuse
  | .read a _ | .poll a _ _ => (busRead a s).2
  | .write a d _ => busWrite a d s

/-- What is left of the program after its next action. -/
def HostProg.rest (s : State) : HostProg → HostProg
  | .done | .refuse => .done
  | .read a k => k (busRead a s).1
  | .write _ _ k | .enableInterrupts k => k
  | .poll a b k => if (busRead a s).1.getLsbD b then k else .poll a b k

end Sys2Proof.Machine
end

