-- ==== Sys2Proof/Machine/System.lean ====
section
/-! DEFINITION. The block and its host together: host transactions interleaved with the events of the other agents
(rules R4, R57, R216, R217, R232 to R236, R253; log entries 13, 24). Runs that break the host assumptions of R5 are
runs here too; the assumptions are named premises in Sys2Proof/Safety.lean. -/

namespace Sys2Proof.Machine

/-- The block and its host. -/
structure System where
  block : State
  /-- the operations the main thread has yet to begin -/
  ops : List HostOp
  /-- what is left of the main thread's present operation -/
  main : HostProg
  /-- what is left of each invocation of the decoder, the innermost first; more than one only where R5(b) is broken -/
  decoders : List HostProg
  /-- the host's own interrupt enable (R234) -/
  intEnable : Bool
  /-- the operations begun since the last boot began, oldest first, a record for R5(d) -/
  started : List HostOp

/-- The host as a power-on or a reset of the whole system leaves it: about to boot, its own interrupts off (R252,
R253). -/
def System.booting (v : HostVariant) (order : List BootStep) (p : Config.Params) (s : State) : System :=
  { block := s, ops := boot v order p, main := .done, decoders := [], intEnable := false, started := [] }

/-- Power-on: the block just reset, the host about to boot (R252, R253). -/
def System.powerOn (v : HostVariant) (order : List BootStep) (p : Config.Params) : System :=
  System.booting v order p State.reset

/-- The main thread begins its next operation, where the last has ended and one is left. -/
def System.begin (p : Config.Params) (y : System) : System :=
  match y.ops with
  | [] => y
  | o :: os => if y.main.isDone then { y with ops := os, main := o.program p .done, started := y.started ++ [o] } else y

/-- The decoder is invoked: the handler of R216 begins, before whatever the host was doing. No stimulus of the block
(R233). -/
def System.enterDecoder (p : Config.Params) (y : System) : System :=
  { y with decoders := handler p.map .done :: y.decoders, started := y.started ++ [.onByteReceived] }

/-- The configuration is refused (R173, R211). DESIGN CHOICE (log entry 14), for the spec does not say what the host then
does: it drops every operation and every invocation of the decoder it had, and keeps its interrupt enable. It is idle,
not dead: it can still take the interrupt, and in the blocking variant it begins the handler body again. -/
def System.halt (y : System) : System :=
  { y with block := y.block.refuse, ops := [], main := .done, decoders := [] }

/-- The innermost invocation of the decoder takes its next action; one that has ended returns. -/
def System.decoderTurn (h : HostProg) (hs : List HostProg) (y : System) : System :=
  if h.refuses then y.halt
  else { y with block := h.effect y.block
                decoders := if (h.rest y.block).isDone then hs else h.rest y.block :: hs
                intEnable := y.intEnable || h.enables }

/-- The main thread takes its next action. With none left it waits (R253 step 5), or, in the blocking variant, runs the
handler body again (R217). -/
def System.mainTurn (v : HostVariant) (p : Config.Params) (y : System) : System :=
  if y.main.isDone then
    match v with
    | .interrupt => y
    | .blocking => y.enterDecoder p
  else if y.main.refuses then y.halt
  else { y with block := y.main.effect y.block
                main := y.main.rest y.block
                intEnable := y.intEnable || y.main.enables }

/-- One turn of the host's software: the decoder's, where it runs, before the main thread's. -/
def hostTurn (v : HostVariant) (p : Config.Params) (y : System) : System :=
  match y.decoders with
  | h :: hs => y.decoderTurn h hs
  | [] => (y.begin p).mainTurn v p

/-- Can the host take the interrupt: `IRQ = 1` and its own interrupts enabled (R234)? A host of the blocking variant
polls instead of taking it (R217). -/
def System.takesInterrupt (v : HostVariant) (y : System) : Bool :=
  match v with
  | .interrupt => y.intEnable && irq y.block
  | .blocking => false

/-- Whose step comes next. -/
inductive Turn where
  /-- the host's software -/
  | host
  /-- the host's core takes the interrupt, where it can (R234); nothing otherwise -/
  | interrupt
  /-- an event of another agent (R4, R73) -/
  | event (e : EventCode) (p : Byte)
  /-- a bus transaction of some other master or thread, which R5(a) rules out (R239) -/
  | other (write : Bool) (a : Offset) (d : Byte)
  /-- a reset of the whole system (R261): EV_RESET, and the host boots in this order (R253) -/
  | systemReset (order : List BootStep)
  deriving DecidableEq, Repr

/-- One turn of the system. DESIGN CHOICE (log entry 24): the event EV_RESET resets the block alone, and the host goes
on with its program and its interrupt enable as they were, for the host's reset entry is outside the block (R252);
a reset that also restarts the host, and the boot R253 then asks of it, is the turn `systemReset`. -/
def System.turn (v : HostVariant) (p : Config.Params) (y : System) : Turn → System
  | .host => hostTurn v p y
  | .interrupt => if y.takesInterrupt v then y.enterDecoder p else y
  | .event e x => { y with block := deliver (eventWord e x) y.block }
  | .other write a d => { y with block := deliver (busWord write a d) y.block }
  | .systemReset order => System.booting v order p (deliver (encode .evReset) y.block)

/-- The system after a sequence of turns: any order of the agents' steps (R57, R232). -/
def System.run (v : HostVariant) (p : Config.Params) (ts : List Turn) (y : System) : System :=
  ts.foldl (fun z t => z.turn v p t) y

end Sys2Proof.Machine
end

