-- ==== Sys2Proof/Safety.lean ====
section
/-! DEFINITION. What claims take as premises or promise: accepted runs (R33), legal runs (R78), fair runs (R123),
the host assumptions (R5), the reserved bits of read values (R24, R27 to R29, R150), and which registers of a
state can be observed (R25, R26). -/

namespace Sys2Proof.Safety

open Sys2Proof.Machine

/-- The premise `REFUSED = 0` of a claim, taken at its end (R33). -/
abbrev Accepted (s : State) : Prop := s.refused = false

/-- A list of stimuli is a run of the block from `s`: each is one the decoder can give in the mode it finds, and
each is enabled where it occurs (R74, R78). -/
def legalRun : List Instr → State → Bool
  | [], _ => true
  | i :: is, s => i.wf && i.fits s.dlab && enabled i s && legalRun is (after i s)

/-- Every state before a stimulus of the list has the property. -/
def holdsThroughout (P : State → Bool) : List Instr → State → Bool
  | [], _ => true
  | i :: is, s => P s && holdsThroughout P is (after i s)

/-- Each WR_THR of the list is issued only while `THRE = 1` (R124, R257). -/
def writesThrOnlyWhenEmpty : List Instr → State → Bool
  | [], _ => true
  | i :: is, s =>
    (match i with
     | .wrThr _ => s.thre
     | _ => true) && writesThrOnlyWhenEmpty is (after i s)

/-- The bytes the list writes to `THR`, in order. -/
def bytesWritten (is : List Instr) : List Byte :=
  is.filterMap fun i =>
    match i with
    | .wrThr d => some d
    | _ => none

/-- The RX_FRAME and RD_RBR stimuli of a list, in order (R106). -/
def receiveEvents (is : List Instr) : List Instr :=
  is.filter fun i =>
    match i with
    | .rxFrame _ | .rdRbr => true
    | _ => false

/-- An endless run: a state before every moment, and the stimulus that comes there, `none` where nothing does. -/
structure EndlessRun where
  state : Nat → State
  stimulus : Nat → Option Instr

/-- Every moment of an endless run is a step of the block or no step (R20, R57, R78). -/
def EndlessRun.Valid (r : EndlessRun) : Prop :=
  ∀ n, match r.stimulus n with
    | none => r.state (n + 1) = r.state n
    | some i => i.WellFormed ∧ i.fits (r.state n).dlab = true ∧ enabled i (r.state n) = true ∧
        exec i (r.state n) = .next (r.state (n + 1))

/-- Weak fairness of the transmitter engine: an event of it that stays enabled eventually occurs (R123, D38). -/
def EndlessRun.Fair (r : EndlessRun) : Prop :=
  (∀ n, (∀ m, n ≤ m → txLoadEnabled (r.state m) = true) → ∃ m, n ≤ m ∧ r.stimulus m = some .txLoad) ∧
  (∀ n, (∀ m, n ≤ m → txDoneEnabled (r.state m) = true) → ∃ m, n ≤ m ∧ r.stimulus m = some .txDone)

/-! ### The host assumptions of R5, as premises on a run of the block and its host -/

/-- At every turn of a run, the check holds of the turn and the system it finds. -/
def atEveryTurn (v : HostVariant) (p : Config.Params) (ok : Turn → System → Bool) : List Turn → System → Bool
  | [], _ => true
  | t :: ts, y => ok t y && atEveryTurn v p ok ts (y.turn v p t)

/-- HOST ASSUMPTION R5(a): one host, with one thread of control and its handler. No other master or thread issues a
transaction. -/
def singleHost (ts : List Turn) : Bool :=
  ts.all fun t =>
    match t with
    | .other _ _ _ => false
    | .host | .interrupt | .event _ _ | .systemReset _ => true

/-- HOST ASSUMPTION R5(b): the handler is not re-entered; the interrupt is taken only while no invocation of the
decoder runs (R234). DESIGN CHOICE (log entry 28): the invocations are those of `System.decoders`; the handler's text run by
the main thread as an operation of its own is none of them. -/
def handlerNotReentered (v : HostVariant) (p : Config.Params) : List Turn → System → Bool :=
  atEveryTurn v p fun t y =>
    match t with
    | .interrupt => !y.takesInterrupt v || y.decoders.isEmpty
    | .host | .event _ _ | .other _ _ _ | .systemReset _ => true

/-- The turn issues a bus write of `OUT` that is not the decoder's. The boot's own (R253 step 1) comes before the host
enables its interrupts and is no breach of R5(c) (log entry 27). The handler's text run by the main thread is not the
decoder's here (log entry 28). -/
def foreignWriteOfOut (p : Config.Params) (t : Turn) (y : System) : Bool :=
  match t with
  | .host => y.decoders.isEmpty && y.intEnable && (y.begin p).main.writesTo offOut
  | .other write a _ => write && a == offOut
  | .interrupt | .event _ _ | .systemReset _ => false

/-- HOST ASSUMPTION R5(c): no agent other than the decoder writes the GPIO latch. -/
def decoderOwnsOut (v : HostVariant) (p : Config.Params) : List Turn → System → Bool :=
  atEveryTurn v p fun t y => !foreignWriteOfOut p t y

/-- `initialize` comes at most once, and no transmit or receive operation comes before it. -/
def initialisedOnceFirst (ops : List HostOp) : Bool :=
  decide (ops.countP HostOp.isInitialise ≤ 1) &&
  (ops.takeWhile fun o => !o.isInitialise).all fun o => !o.usesLine

/-- HOST ASSUMPTION R5(d) of a run, taken at every turn: the operations begun since the last boot began, the decoder's
invocations among them, have `initialize` once and before any transmit or receive operation. -/
def initialisedFirst (v : HostVariant) (p : Config.Params) (ts : List Turn) (y : System) : Bool :=
  atEveryTurn v p (fun _ z => initialisedOnceFirst z.started) ts y && initialisedOnceFirst (y.run v p ts).started

/-- The turns reset nothing: neither the block alone nor the system. -/
def noReset (ts : List Turn) : Bool :=
  ts.all fun t =>
    match t with
    | .event e _ => e != 0b00000#5
    | .systemReset _ => false
    | .host | .interrupt | .other _ _ _ => true

/-- The run ends the one invocation of the decoder with its last turn, and not before. -/
def endsDecoder (v : HostVariant) (p : Config.Params) (ts : List Turn) (y : System) : Prop :=
  (y.run v p ts).decoders = [] ∧ ∀ n < ts.length, (y.run v p (ts.take n)).decoders ≠ []

/-- The fixed bits of a value read: those of LSR (R24), IER (R27), LCR (R28), ENR (R29) and a reserved offset
(R150), and in LSR `TEMT` only together with `THRE` (R26). -/
def fixedBitsRight (e : ReadRecord) : Bool :=
  match e.reg with
  | .lsr => e.value &&& 0x9E#8 == 0x00#8 && (!e.value.getLsbD 6 || e.value.getLsbD 5)
  | .ier => e.value &&& 0xFE#8 == 0x00#8
  | .lcr => e.value &&& 0x7B#8 == 0x03#8
  | .enr => e.value &&& 0xFC#8 == 0x00#8
  | .rsv => e.value == 0x00#8
  | .rbr | .dll | .dlm | .out | .dir => true

/-- INVARIANT: every value the block has returned has its fixed bits right. -/
abbrev ReadsLegal (s : State) : Prop := s.readLog.all fixedBitsRight = true

/-- Two states differ at most in a `THR` that holds no byte and a `TSR` that holds no byte (R25, R26). -/
def SameButIdleTx (s t : State) : Prop :=
  ∃ a b : Byte, t = { s with thr := a, tsr := b } ∧ (s.thre = false → a = s.thr) ∧ (s.tsrBusy = true → b = s.tsr)

end Sys2Proof.Safety
end

