-- ==== Sys2Proof/Certificates/Slice0/Obligations.lean ====
section
/-! DEFINITION. What is claimed of the block, stated from the spec's numbered rules. -/

open Sys2Proof Sys2Proof.Machine Sys2Proof.Safety

/-! ### Steps and decoding -/

/-- R56, R57, R74: with `w` first in the schedule, a step is the decoded stimulus, run in the state with `w` taken
from the schedule and nothing else changed; what is decoded is well-formed and of the mode. The schedule is the
model's own (log entry 1). -/
def Obligations.StepRunsDecodedStimulus : Prop :=
  ∀ (s : State) (w : Word) (ws : List Word), s.schedule = w :: ws →
    step s = exec (decode s.dlab w) { s with schedule := ws } ∧
    (decode s.dlab w).WellFormed ∧ (decode s.dlab w).fits s.dlab = true

/-- R4(3), R123: with no stimulus waiting, the transmitter engine takes the event that is enabled, and with none
enabled nothing changes (the model's choice, log entry 2). -/
def Obligations.StepWithoutStimulusRunsEngine : Prop :=
  ∀ s : State, s.schedule = [] →
    (s.thre = false → s.tsrBusy = false → s.txen = true → s.dl ≠ 0#16 → step s = exec .txLoad s) ∧
    (s.tsrBusy = true → s.txen = true → s.dl ≠ 0#16 → step s = exec .txDone s) ∧
    (s.txen = false ∨ s.dl = 0#16 ∨ s.thre = true ∧ s.tsrBusy = false → step s = .next s)

/-- R70 to R77: decoding the word of a well-formed stimulus, in a mode it belongs to, gives it back. -/
def Obligations.DecodeOfEncodeIsIdentity : Prop :=
  ∀ (dlab : Bool) (i : Instr), i.WellFormed → i.fits dlab = true → decode dlab (encode i) = i

/-- R72, R73: encoding what a word decodes to gives a word that agrees with it in bits 13:8 and decodes alike. -/
def Obligations.EncodeOfDecodeKeepsOpcode : Prop :=
  ∀ (dlab : Bool) (w : Word),
    (encode (decode dlab w)).extractLsb' 8 6 = w.extractLsb' 8 6 ∧
    decode dlab (encode (decode dlab w)) = decode dlab w

/-- R74, R75: in each mode exactly one row of the opcode map names a word, and the decoder gives that row's
mnemonic. -/
def Obligations.DecoderFollowsOpcodeMap : Prop :=
  ∀ (dlab : Bool) (w : Word),
    ((opcodeTable.filter fun r => r.admits dlab w).map fun r => r.mnemonic) = [(decode dlab w).mnemonic]

/-- R72: two reads that agree in bits 13:8 decode alike, and the canonical word of a read has `D = 0`. -/
def Obligations.ReadDecodingIgnoresData : Prop :=
  (∀ (dlab : Bool) (w v : Word), w.getLsbD 13 = false → w.getLsbD 12 = false →
    w.extractLsb' 8 6 = v.extractLsb' 8 6 → decode dlab w = decode dlab v) ∧
  (∀ i : Instr, (encode i).getLsbD 13 = false → (encode i).getLsbD 12 = false → (encode i).extractLsb' 0 8 = 0#8)

/-- R74: `LCR.DLAB` changes the decoding of host transactions at offsets 0x0 and 0x1, and of nothing else. -/
def Obligations.DlabBanksOffsets0And1Only : Prop :=
  ∀ w : Word, decode false w ≠ decode true w ↔
    (w.getLsbD 13 = false ∧ (w.extractLsb' 8 4 = 0x0#4 ∨ w.extractLsb' 8 4 = 0x1#4))

/-- The words the rules of the stimuli give: `0x1000 + D` for WR_THR (R120) and WR_DLL (R146), `0x1100 + D` for WR_IER
(R104) and WR_DLM (R148), and so on through the opcode map, with `0x2100 + P` for RX_FRAME (R100). -/
def Obligations.EncodedWordsAreTheSpecs : Prop :=
  (∀ d : Byte,
    (encode (.wrThr d)).toNat = 0x1000 + d.toNat ∧ (encode (.wrDll d)).toNat = 0x1000 + d.toNat ∧
    (encode (.wrIer d)).toNat = 0x1100 + d.toNat ∧ (encode (.wrDlm d)).toNat = 0x1100 + d.toNat ∧
    (encode (.wrLcr d)).toNat = 0x1300 + d.toNat ∧ (encode (.wrEnr d)).toNat = 0x1400 + d.toNat ∧
    (encode (.wrLsr d)).toNat = 0x1500 + d.toNat ∧ (encode (.wrOut d)).toNat = 0x1800 + d.toNat ∧
    (encode (.wrDir d)).toNat = 0x1900 + d.toNat ∧ (encode (.rxFrame d)).toNat = 0x2100 + d.toNat) ∧
  (∀ (a : Offset) (d : Byte), (encode (.rdRsv a)).toNat = 0x100 * a.toNat ∧
    (encode (.wrRsv a d)).toNat = 0x1000 + 0x100 * a.toNat + d.toNat) ∧
  (∀ e : EventCode, (encode (.evRsv e)).toNat = 0x2000 + 0x100 * e.toNat) ∧
  ([Instr.rdRbr, .rdDll, .rdIer, .rdDlm, .rdLcr, .rdEnr, .rdLsr, .rdOut, .rdDir, .evReset, .txLoad, .txDone].map
    fun i => (encode i).toNat) =
    [0x0000, 0x0000, 0x0100, 0x0100, 0x0300, 0x0400, 0x0500, 0x0800, 0x0900, 0x2000, 0x2200, 0x2300]

/-- A few words of spec/95_test_vectors.md L2.1 decode to the stimuli it names. -/
def Obligations.SampleWordsDecode : Prop :=
  decode false 0x00A7#14 = .rdRbr ∧ decode true 0x1041#14 = .wrDll 0x41#8 ∧ decode false 0x1041#14 = .wrThr 0x41#8 ∧
  decode true 0x1383#14 = .wrLcr 0x83#8 ∧ decode false 0x0700#14 = .rdRsv 0x7#4 ∧
  decode false 0x1FFF#14 = .wrRsv 0xF#4 0xFF#8 ∧ decode true 0x2103#14 = .rxFrame 0x03#8 ∧
  decode false 0x2255#14 = .txLoad ∧ decode false 0x2B00#14 = .evRsv 0b01011#5

/-- R79: a register name chooses only the offset, and `LCR.DLAB` decides which register the word then reaches; the
event forms give the words of their events. -/
def Obligations.AssemblerWordsAreStimuli : Prop :=
  (∀ dlab : Bool,
    ([AsmReg.rbr, .dll, .ier, .dlm, .lcr, .enr, .lsr, .out, .dir].map fun r => decode dlab (AsmLine.rd r.offset).word) =
      (if dlab then [.rdDll, .rdDll, .rdDlm, .rdDlm] else [.rdRbr, .rdRbr, .rdIer, .rdIer]) ++
        [.rdLcr, .rdEnr, .rdLsr, .rdOut, .rdDir]) ∧
  (∀ (dlab : Bool) (d : Byte),
    ([AsmReg.thr, .dll, .ier, .dlm, .lcr, .enr, .lsr, .out, .dir].map fun r => decode dlab (AsmLine.wr r.offset d).word) =
      (if dlab then [.wrDll d, .wrDll d, .wrDlm d, .wrDlm d] else [.wrThr d, .wrThr d, .wrIer d, .wrIer d]) ++
        [.wrLcr d, .wrEnr d, .wrLsr d, .wrOut d, .wrDir d]) ∧
  AsmLine.evReset.word = encode .evReset ∧ AsmLine.evTxload.word = encode .txLoad ∧
  AsmLine.evTxdone.word = encode .txDone ∧ ∀ p : Byte, (AsmLine.evRx p).word = encode (.rxFrame p)

/-! ### Reset -/

/-- R35, R250: EV_RESET, the event 0b00000, gives every register of R35 the value of the table and leaves the run records;
`RBR`, `THR` and `TSR` hold unspecified bytes (`r`, `a`, `b`; nothing is claimed of them, nor of the model's draw
counter `n`, log entry 7). -/
def Obligations.ResetGivesSpecValues : Prop :=
  ∀ (x : Byte) (s : State), decode s.dlab (eventWord 0b00000#5 x) = .evReset ∧
    ∃ (r a b : Byte) (n : Nat) (t : State),
      exec .evReset s = .next t ∧
      t = { s with rbr := r, dr := false, thr := a, thre := true, tsr := b, tsrBusy := false, erbfi := false,
                   stb := false, dlab := false, rxen := false, txen := false, dl := 0x0000#16, out := 0x00#8,
                   dir := 0x00#8, draws := n } ∧
      irq t = false ∧ lsrValue t = 0x60#8 ∧ lcrValue t = 0x03#8 ∧ ierValue t = 0x00#8 ∧ enrValue t = 0x00#8 ∧
      rxActive t = false ∧ txActive t = false ∧ (∀ j, pin t j = .z) ∧ pendingTx t = []

/-- R252: a run starts in the state EV_RESET produces, with `TXD_LOG = []` and `REFUSED = 0`: EV_RESET leads from any
state to the initial one but for the unspecified bytes and what the run has recorded. -/
def Obligations.RunStartsInResetState : Prop :=
  State.reset.txdLog = [] ∧ State.reset.refused = false ∧
  ∀ s : State, ∃ (r a b : Byte) (n : Nat),
    exec .evReset s = .next { State.reset with
      rbr := r, thr := a, tsr := b, draws := n, txdLog := s.txdLog, refused := s.refused,
      readLog := s.readLog, schedule := s.schedule }

/-- R251: after EV_RESET no byte that was in `THR` or `TSR` is ever sent, whatever stimuli but WR_THR follow, and a
byte in `RBR` is lost (`DR` is 0). -/
def Obligations.ResetAbandonsBytesInFlight : Prop :=
  ∀ (s t : State) (is : List Instr), exec .evReset s = .next t → bytesWritten is = [] →
    (afterAll is t).txdLog = s.txdLog ∧ t.dr = false

/-! ### The receive path -/

/-- R100: with the receiver active the payload replaces `RBR`, read or not, and sets `DR`, so `IRQ` follows `ERBFI`; with
the receiver inactive nothing changes. The word is `{1, 0b00001, P}` in either mode. -/
def Obligations.RxFrameReplacesOrDrops : Prop :=
  ∀ (p : Byte) (s : State),
    decode s.dlab (eventWord 0b00001#5 p) = .rxFrame p ∧
    (s.rxen = true → s.dl ≠ 0#16 → ∃ t, exec (.rxFrame p) s = .next t ∧ t = { s with rbr := p, dr := true } ∧
      irq t = s.erbfi) ∧
    (s.rxen = false ∨ s.dl = 0#16 → exec (.rxFrame p) s = .next s)

/-- R101: RD_RBR, a read of offset 0x0 with DLAB 0 (with DLAB 1 it is RD_DLL), returns `RBR` and clears `DR`, so `IRQ`
falls; `RBR` keeps its byte, so a second read returns it again. -/
def Obligations.RdRbrReturnsByteAndClearsDr : Prop :=
  ∀ (x : Byte) (s : State), decode false (busWord false 0x0#4 x) = .rdRbr ∧ decode true (busWord false 0x0#4 x) = .rdDll ∧
    ∃ t, exec .rdRbr s = .next t ∧
      t = { s with readLog := s.readLog ++ [⟨.rbr, s.rbr⟩], dr := false } ∧ irq t = false ∧
      exec .rdRbr t = .next { t with readLog := t.readLog ++ [⟨.rbr, s.rbr⟩] }

/-- R24, R102: RD_LSR, a read of offset 0x5 in either mode, returns DR in bit 0, THRE in bit 5, TEMT (`THRE & ~TSR_BUSY`)
in bit 6, and 0 in every other bit, and changes nothing. -/
def Obligations.RdLsrReturnsStatusBits : Prop :=
  ∀ (x : Byte) (s : State), decode s.dlab (busWord false 0x5#4 x) = .rdLsr ∧
    ∃ v : Byte, exec .rdLsr s = .next { s with readLog := s.readLog ++ [⟨.lsr, v⟩] } ∧
      v.getLsbD 0 = s.dr ∧ v.getLsbD 5 = s.thre ∧ v.getLsbD 6 = (s.thre && !s.tsrBusy) ∧
      v.getLsbD 1 = false ∧ v.getLsbD 2 = false ∧ v.getLsbD 3 = false ∧ v.getLsbD 4 = false ∧ v.getLsbD 7 = false

/-- R103, R104: at offset 0x1 with DLAB 0 (with DLAB 1 it is `DLM`), WR_IER writes `ERBFI` from `D[0]` alone, so `IRQ` is
then `D[0] & DR`; RD_IER returns `ERBFI` in bit 0 and 0 above it and changes nothing, so after WR_IER it returns
`D & 0x01`. -/
def Obligations.IerWriteAndRead : Prop :=
  ∀ (d x : Byte) (s : State),
    decode false (busWord true 0x1#4 d) = .wrIer d ∧ decode true (busWord true 0x1#4 d) = .wrDlm d ∧
    decode false (busWord false 0x1#4 x) = .rdIer ∧ decode true (busWord false 0x1#4 x) = .rdDlm ∧
    ∃ t, exec (.wrIer d) s = .next t ∧ t = { s with erbfi := d.getLsbD 0 } ∧
      irq t = (d.getLsbD 0 && s.dr) ∧
      exec .rdIer t = .next { t with readLog := t.readLog ++ [⟨.ier, d &&& 0x01#8⟩] } ∧
      exec .rdIer s = .next { s with readLog := s.readLog ++ [⟨.ier, if s.erbfi then 0x01#8 else 0x00#8⟩] }

/-- R22, R23: `DR` is set by no stimulus but an RX_FRAME the receiver takes, and cleared by none but RD_RBR and EV_RESET;
`RBR` is written by none but an RX_FRAME the receiver takes, which writes its payload, and EV_RESET. -/
def Obligations.ReceiveStateWriters : Prop :=
  ∀ (i : Instr) (s t : State), exec i s = .next t →
    (s.dr = false → t.dr = true → (∃ p, i = .rxFrame p) ∧ s.rxen = true ∧ s.dl ≠ 0#16) ∧
    (s.dr = true → t.dr = false → i = .rdRbr ∨ i = .evReset) ∧
    (t.rbr ≠ s.rbr → i = .evReset ∨ (i = .rxFrame t.rbr ∧ s.rxen = true ∧ s.dl ≠ 0#16))

/-- R105: `IRQ` is `ERBFI & DR`. The pending condition `DR` stays set until RD_RBR or EV_RESET clears it, and `IRQ` stays
asserted until one of them does or WR_IER clears the enable. -/
def Obligations.IrqStaysUntilServed : Prop :=
  (∀ s : State, irq s = true ↔ s.erbfi = true ∧ s.dr = true) ∧
  ∀ (i : Instr) (s t : State), exec i s = .next t →
    (s.dr = true → t.dr = false → i = .rdRbr ∨ i = .evReset) ∧
    (irq s = true → irq t = false → i = .rdRbr ∨ i = .evReset ∨ ∃ d : Byte, i = .wrIer d ∧ d.getLsbD 0 = false)

/-- R232: the two orders of RX_FRAME and RD_RBR. The read first returns the old byte and leaves the new one pending,
with `IRQ` high where enabled; the frame first loses the old byte, and the read returns the new one and leaves none
pending. -/
def Obligations.FrameAndReadInEitherOrder : Prop :=
  ∀ (p : Byte) (s : State), s.rxen = true → s.dl ≠ 0#16 →
    afterAll [.rdRbr, .rxFrame p] s = { s with readLog := s.readLog ++ [⟨.rbr, s.rbr⟩], rbr := p, dr := true } ∧
    irq (afterAll [.rdRbr, .rxFrame p] s) = s.erbfi ∧
    afterAll [.rxFrame p, .rdRbr] s = { s with readLog := s.readLog ++ [⟨.rbr, p⟩], rbr := p, dr := false }

/-- R106: with the receiver active throughout and an RD_RBR after each RX_FRAME and before the next, the bytes the
reads return are the payloads in arrival order, whatever else happens in between. -/
def Obligations.ReceivedBytesReadInOrder : Prop :=
  ∀ (is : List Instr) (ps : List Byte) (s : State),
    holdsThroughout rxActive is s = true →
    receiveEvents is = ps.flatMap (fun p => [.rxFrame p, .rdRbr]) →
    readsOf .rbr (afterAll is s) = readsOf .rbr s ++ ps

/-! ### The transmit path -/

/-- R120: WR_THR, a write of offset 0x0 with DLAB 0 (with DLAB 1 it is WR_DLL), fills `THR` and clears `THRE`, so TEMT is
0, whether or not the transmitter is active; a second write replaces the byte. -/
def Obligations.WrThrFillsHoldingRegister : Prop :=
  ∀ (d e : Byte) (s : State),
    decode false (busWord true 0x0#4 d) = .wrThr d ∧ decode true (busWord true 0x0#4 d) = .wrDll d ∧
    ∃ t, exec (.wrThr d) s = .next t ∧ t = { s with thr := d, thre := false } ∧
      temt t = false ∧ exec (.wrThr e) t = .next { s with thr := e, thre := false }

/-- R121: TX_LOAD, the event 0b00010, is enabled only when `THRE = 0`, `TSR_BUSY = 0` and the transmitter is active; it
then moves `THR` to `TSR`, setting `TSR_BUSY` and `THRE`, and TEMT stays 0. -/
def Obligations.TxLoadMovesByte : Prop :=
  ∀ (x : Byte) (s : State), decode s.dlab (eventWord 0b00010#5 x) = .txLoad ∧
    (enabled .txLoad s = true ↔ s.thre = false ∧ s.tsrBusy = false ∧ s.txen = true ∧ s.dl ≠ 0#16) ∧
    (s.thre = false → s.tsrBusy = false → s.txen = true → s.dl ≠ 0#16 →
      ∃ t, exec .txLoad s = .next t ∧ t = { s with tsr := s.thr, tsrBusy := true, thre := true } ∧ temt t = false)

/-- R122: TX_DONE, the event 0b00011, is enabled only when `TSR_BUSY = 1` and the transmitter is active; it then appends
`TSR` to `TXD_LOG` and frees the transmitter, and TEMT becomes THRE. -/
def Obligations.TxDoneEmitsByte : Prop :=
  ∀ (x : Byte) (s : State), decode s.dlab (eventWord 0b00011#5 x) = .txDone ∧
    (enabled .txDone s = true ↔ s.tsrBusy = true ∧ s.txen = true ∧ s.dl ≠ 0#16) ∧
    (s.tsrBusy = true → s.txen = true → s.dl ≠ 0#16 →
      ∃ t, exec .txDone s = .next t ∧ t = { s with txdLog := s.txdLog ++ [s.tsr], tsrBusy := false } ∧
        temt t = s.thre)

/-- R78 as the model takes it (log entry 3): a schedule entry naming TX_LOAD or TX_DONE where it is not enabled changes
nothing, and is neither a fault nor a refusal. -/
def Obligations.DisabledEngineEventChangesNothing : Prop :=
  ∀ s : State,
    (s.thre = true ∨ s.tsrBusy = true ∨ s.txen = false ∨ s.dl = 0#16 → exec .txLoad s = .next s) ∧
    (s.tsrBusy = false ∨ s.txen = false ∨ s.dl = 0#16 → exec .txDone s = .next s)

/-- R33: TX_DONE alone appends to `TXD_LOG`, and nothing else changes it, reset included; `REFUSED` is set by EV_RSV
and never cleared. -/
def Obligations.RunRecordsOnlyGrow : Prop :=
  ∀ (i : Instr) (s t : State), exec i s = .next t →
    (t.txdLog = s.txdLog ∨ (i = .txDone ∧ t.txdLog = s.txdLog ++ [s.tsr])) ∧
    (s.refused = true → t.refused = true) ∧
    (s.refused = false → t.refused = true → ∃ e, i = .evRsv e)

/-- R124: with each WR_THR issued only while `THRE = 1` and no EV_RESET, the bytes sent and the bytes in the transmitter
are together those before and the bytes written, in write order, each once. -/
def Obligations.TransmittedBytesKeepOrder : Prop :=
  ∀ (is : List Instr) (s : State), writesThrOnlyWhenEmpty is s = true → Instr.evReset ∉ is →
    (afterAll is s).txdLog ++ pendingTx (afterAll is s) = s.txdLog ++ pendingTx s ++ bytesWritten is

/-- R123, R124: in a fair endless run with the transmitter active, no EV_RESET, and each WR_THR issued only while
`THRE = 1`, every byte in the transmitter is sent eventually, in order. -/
def Obligations.FairRunSendsEveryByte : Prop :=
  ∀ r : EndlessRun, r.Valid → r.Fair →
    (∀ n, txActive (r.state n) = true) → (∀ n, r.stimulus n ≠ some .evReset) →
    (∀ n d, r.stimulus n = some (.wrThr d) → (r.state n).thre = true) →
    ∀ n, ∃ m, n ≤ m ∧ (r.state n).txdLog ++ pendingTx (r.state n) <+: (r.state m).txdLog

/-- R123 as the model's idle step takes it (log entry 2): with no stimulus waiting and the transmitter active, three
steps send every byte in the transmitter and leave it empty. -/
def Obligations.IdleStepsDrainTransmitter : Prop :=
  ∀ s : State, s.schedule = [] → s.txen = true → s.dl ≠ 0#16 →
    ∃ t, core.run 3 s = .next t ∧ t.txdLog = s.txdLog ++ pendingTx s ∧ temt t = true

/-- R25, R26: a `THR` and a `TSR` that hold no byte are never observed: two states that differ in nothing else differ
in nothing else after any stimulus, and have returned and sent the same bytes. For EV_RESET this rests on the model's
draws, not on the chip: the two states have equal draw counters, so they draw equal bytes for `RBR` (log entries 5
and 7). -/
def Obligations.IdleTransmitBytesNeverObserved : Prop :=
  ∀ (i : Instr) (s t s' t' : State), SameButIdleTx s t → exec i s = .next s' → exec i t = .next t' →
    SameButIdleTx s' t' ∧ s'.readLog = t'.readLog ∧ s'.txdLog = t'.txdLog

/-! ### Line configuration -/

/-- R140, R141: at offset 0x3 in either mode, WR_LCR writes STB from `D[2]` and DLAB from `D[7]` alone; RD_LCR returns 3,
plus 4 for STB, plus 128 for DLAB, and changes nothing, so after WR_LCR it returns `(D & 0x84) | 0x03`: 8N, whatever
was written. -/
def Obligations.LcrWriteAndRead : Prop :=
  ∀ (d x : Byte) (s : State),
    decode s.dlab (busWord true 0x3#4 d) = .wrLcr d ∧ decode s.dlab (busWord false 0x3#4 x) = .rdLcr ∧
    ∃ (t : State) (v : Byte), exec (.wrLcr d) s = .next t ∧
      t = { s with stb := d.getLsbD 2, dlab := d.getLsbD 7 } ∧
      exec .rdLcr t = .next { t with readLog := t.readLog ++ [⟨.lcr, (d &&& 0x84#8) ||| 0x03#8⟩] } ∧
      exec .rdLcr s = .next { s with readLog := s.readLog ++ [⟨.lcr, v⟩] } ∧
      v.toNat = 3 + (if s.stb then 4 else 0) + (if s.dlab then 128 else 0)

/-- R143, R144: at offset 0x4 in either mode, WR_ENR writes RXEN from `D[0]` and TXEN from `D[1]`, flushing nothing;
RD_ENR returns RXEN in bit 0 and TXEN in bit 1, 0 above, and changes nothing, so after WR_ENR it returns `D & 0x03`. -/
def Obligations.EnrWriteAndRead : Prop :=
  ∀ (d x : Byte) (s : State),
    decode s.dlab (busWord true 0x4#4 d) = .wrEnr d ∧ decode s.dlab (busWord false 0x4#4 x) = .rdEnr ∧
    ∃ (t : State) (v : Byte), exec (.wrEnr d) s = .next t ∧
      t = { s with rxen := d.getLsbD 0, txen := d.getLsbD 1 } ∧
      exec .rdEnr t = .next { t with readLog := t.readLog ++ [⟨.enr, d &&& 0x03#8⟩] } ∧
      exec .rdEnr s = .next { s with readLog := s.readLog ++ [⟨.enr, v⟩] } ∧
      v.toNat = (if s.rxen then 1 else 0) + (if s.txen then 2 else 0)

/-- R145, R147: with DLAB 1, a read of offset 0x0 is RD_DLL, which returns `DL mod 256`, and one of offset 0x1 is RD_DLM,
which returns `DL div 256`; neither touches `DR` or anything else. -/
def Obligations.DivisorBytesRead : Prop :=
  ∀ (x : Byte) (s : State),
    decode true (busWord false 0x0#4 x) = .rdDll ∧ decode true (busWord false 0x1#4 x) = .rdDlm ∧
    ∃ lo hi : Byte,
      exec .rdDll s = .next { s with readLog := s.readLog ++ [⟨.dll, lo⟩] } ∧ lo.toNat = s.dl.toNat % 256 ∧
      exec .rdDlm s = .next { s with readLog := s.readLog ++ [⟨.dlm, hi⟩] } ∧ hi.toNat = s.dl.toNat / 256

/-- R146, R148: with DLAB 1, a write of offset 0x0 is WR_DLL, which replaces the low byte of `DL`, and one of offset 0x1
is WR_DLM, which replaces the high byte, and nothing else; where `DL` becomes 0 neither side is active. -/
def Obligations.DivisorBytesWritten : Prop :=
  ∀ (d : Byte) (s : State),
    decode true (busWord true 0x0#4 d) = .wrDll d ∧ decode true (busWord true 0x1#4 d) = .wrDlm d ∧
    ∃ v w : Half,
      exec (.wrDll d) s = .next { s with dl := v } ∧ v.toNat = 256 * (s.dl.toNat / 256) + d.toNat ∧
      exec (.wrDlm d) s = .next { s with dl := w } ∧ w.toNat = 256 * d.toNat + s.dl.toNat % 256 ∧
      (d = 0#8 → s.dl.toNat < 256 → rxActive { s with dl := v } = false ∧ txActive { s with dl := v } = false) ∧
      (d = 0#8 → s.dl.toNat % 256 = 0 → rxActive { s with dl := w } = false ∧ txActive { s with dl := w } = false)

/-- R149, R150, R151: in either mode offsets 0x2, 0x6, 0x7 and 0xA to 0xF are reserved; writes to `LSR` (offset 0x5) and
to a reserved offset change nothing, and a read of a reserved offset returns 0x00 whatever the state. -/
def Obligations.ReservedLocationsHaveNoEffect : Prop :=
  (∀ (d : Byte) (s : State), decode s.dlab (busWord true 0x5#4 d) = .wrLsr d ∧ exec (.wrLsr d) s = .next s) ∧
  ∀ (a : Offset) (d x : Byte) (s : State),
    (a = 0x2#4 ∨ a = 0x6#4 ∨ a = 0x7#4 ∨ 0xA ≤ a.toNat →
      decode s.dlab (busWord true a d) = .wrRsv a d ∧ decode s.dlab (busWord false a x) = .rdRsv a) ∧
    exec (.wrRsv a d) s = .next s ∧
    exec (.rdRsv a) s = .next { s with readLog := s.readLog ++ [⟨.rsv, 0x00#8⟩] }

/-- R254, R142: while `DL` is 0 and no divisor byte is written, no frame is received and no byte is sent. -/
def Obligations.NothingRunsBeforeDivisor : Prop :=
  ∀ (is : List Instr) (s : State), s.dl = 0#16 → (∀ d, Instr.wrDll d ∉ is ∧ Instr.wrDlm d ∉ is) →
    ((afterAll is s).dr = true → s.dr = true) ∧ (afterAll is s).txdLog = s.txdLog

/-- R256: with DLAB left at 1, a step on the word of `rd RBR` returns the low divisor byte and leaves `DR`, `RBR` and so
`IRQ`, and a step on the word of `wr THR` changes the divisor and leaves `THR` and `THRE`. -/
def Obligations.DlabLeftSetHidesRbrAndThr : Prop :=
  ∀ (s : State) (ws : List Word) (d x : Byte), s.dlab = true →
    (s.schedule = busWord false 0x0#4 x :: ws → ∃ v : Byte, step s =
      .next { s with readLog := s.readLog ++ [⟨.dll, v⟩], schedule := ws } ∧ v.toNat = s.dl.toNat % 256) ∧
    (s.schedule = busWord true 0x0#4 d :: ws → ∃ v : Half, step s = .next { s with dl := v, schedule := ws } ∧
      v.toNat = 256 * (s.dl.toNat / 256) + d.toNat)

/-! ### The GPIO latch -/

/-- R190, R192, R193: in either mode, at offset 0x8 for `OUT` and 0x9 for `DIR`, a write replaces that register and
nothing else, RD_OUT and RD_DIR return the registers and change nothing, and a read after a write returns the value
written: the latch, not the line levels. -/
def Obligations.OutAndDirWriteAndRead : Prop :=
  ∀ (d x : Byte) (s : State),
    decode s.dlab (busWord false 0x8#4 x) = .rdOut ∧ decode s.dlab (busWord true 0x8#4 d) = .wrOut d ∧
    decode s.dlab (busWord false 0x9#4 x) = .rdDir ∧ decode s.dlab (busWord true 0x9#4 d) = .wrDir d ∧
    exec .rdOut s = .next { s with readLog := s.readLog ++ [⟨.out, s.out⟩] } ∧
    exec .rdDir s = .next { s with readLog := s.readLog ++ [⟨.dir, s.dir⟩] } ∧
    (∃ t, exec (.wrOut d) s = .next t ∧ t = { s with out := d } ∧
      exec .rdOut t = .next { t with readLog := t.readLog ++ [⟨.out, d⟩] }) ∧
    (∃ t, exec (.wrDir d) s = .next t ∧ t = { s with dir := d } ∧
      exec .rdDir t = .next { t with readLog := t.readLog ++ [⟨.dir, d⟩] })

/-- R191, R194: line j is driven to `OUT[j]` when `DIR[j] = 1` and not driven otherwise; so WR_OUT, a write of offset 0x8,
drives every line with `DIR[j] = 1` to bit j of the datum, all in the one step. -/
def Obligations.OutWriteDrivesAllLines : Prop :=
  (∀ (s : State) (j : Fin 8),
    (pin s j = .high ↔ s.dir.getLsbD j = true ∧ s.out.getLsbD j = true) ∧
    (pin s j = .low ↔ s.dir.getLsbD j = true ∧ s.out.getLsbD j = false) ∧
    (pin s j = .z ↔ s.dir.getLsbD j = false)) ∧
  ∀ (d : Byte) (s : State), decode s.dlab (busWord true 0x8#4 d) = .wrOut d ∧
    ∃ t, exec (.wrOut d) s = .next t ∧ t = { s with out := d } ∧ ∀ j : Fin 8,
      (s.dir.getLsbD j = true → d.getLsbD j = true → pin t j = .high) ∧
      (s.dir.getLsbD j = true → d.getLsbD j = false → pin t j = .low) ∧
      (s.dir.getLsbD j = false → pin t j = .z)

/-- R195, R56: no stimulus changes a line level but WR_OUT, WR_DIR and EV_RESET, and no event but EV_RESET writes
`OUT`. -/
def Obligations.LineLevelWriters : Prop :=
  ∀ (i : Instr) (s t : State), exec i s = .next t →
    ((∃ j, pin t j ≠ pin s j) → i = .evReset ∨ (∃ d, i = .wrOut d) ∨ ∃ d, i = .wrDir d) ∧
    (t.out ≠ s.out → i = .evReset ∨ i = .wrOut t.out) ∧ (t.dir ≠ s.dir → i = .evReset ∨ i = .wrDir t.dir)

/-! ### All stimuli -/

/-- R230: no stimulus and no step faults or is refused by the machine; only EV_RSV sets `REFUSED`. Of a disabled TX_LOAD
or TX_DONE (log entry 3), of EV_RSV (log entry 8) and of a step with no stimulus waiting (log entry 2) that is the
model's reading; R230 speaks of host transactions and enabled events. -/
def Obligations.EveryStimulusCompletes : Prop :=
  (∀ (i : Instr) (s : State), ∃ t, exec i s = .next t ∧ (t.refused = (s.refused || i.mnemonic == .EV_RSV))) ∧
  ∀ s : State, ∃ t, step s = .next t

/-- R77: a reserved event sets `REFUSED` and changes nothing else; its code is 0b00100 or more. -/
def Obligations.ReservedEventIsRefused : Prop :=
  ∀ (dlab : Bool) (e : EventCode) (p : Byte) (s : State), 4 ≤ e.toNat →
    decode dlab (eventWord e p) = .evRsv e ∧ exec (.evRsv e) s = .next { s with refused := true }

/-- R54: a bus read in any mode changes nothing but the record of its result, but for RD_RBR, which also clears `DR`;
a second read with no step between returns the same value. -/
def Obligations.ReadsHaveNoSideEffect : Prop :=
  ∀ (s : State) (a : Offset) (x : Byte), ∃ (r : ReadReg) (v : Byte) (t : State),
    exec (decode s.dlab (busWord false a x)) s = .next t ∧
    t = { s with readLog := s.readLog ++ [⟨r, v⟩]
                 dr := if a = 0x0#4 ∧ s.dlab = false then false else s.dr } ∧
    exec (decode s.dlab (busWord false a x)) t = .next { t with readLog := t.readLog ++ [⟨r, v⟩] }

/-- R55, R120: writing the same value to the same offset twice leaves the state that writing it once leaves, and a write
returns nothing. R55 excepts WR_THR, whose second write may replace a byte; with the same value and no step between,
it replaces the byte by itself (R120), so WR_THR is no exception here. -/
def Obligations.WritesAreIdempotent : Prop :=
  ∀ (s : State) (a : Offset) (d : Byte),
    deliver (busWord true a d) (deliver (busWord true a d) s) = deliver (busWord true a d) s ∧
    (deliver (busWord true a d) s).readLog = s.readLog

/-- Every step keeps the fixed bits of all values read so far as R24, R27, R28, R29 and R150 fix them. -/
def Obligations.StepKeepsReadsLegal : Prop :=
  ∀ s t : State, ReadsLegal s → step s = .next t → ReadsLegal t

/-- The invariant of the values read holds right after reset. -/
def Obligations.ResetReadsLegal : Prop :=
  ReadsLegal State.reset

/-! ### The divisor calculator -/

/-- R170, R172: `div_calc` refuses rate 0 and only that, and otherwise clamps the rounded quotient to 1 .. 65535. With
floor rounding, unless clamped, the divisor d is the whole number with
`16 * rate * d <= F_REF < 16 * rate * (d + 1)`. -/
def Obligations.DivisorInRangeAndFloored : Prop :=
  ∀ (m : Rounding) (f r : Nat), (divCalc m f r = none ↔ r = 0) ∧
    ∀ d, divCalc m f r = some d → 1 ≤ d.toNat ∧ d.toNat ≤ 65535 ∧
      (m = .floor → d.toNat = max 1 (min 65535 (f / (16 * r)))) ∧
      (m = .nearest → d.toNat = max 1 (min 65535 ((f + 8 * r) / (16 * r)))) ∧
      (m = .floor → (1 < d.toNat → 16 * r * d.toNat ≤ f) ∧ (d.toNat < 65535 → f < 16 * r * (d.toNat + 1)))

/-- R171: the rounded quotients are the floor of the exact one and the floor of it plus a half, they differ exactly
when its fractional part is at least a half, and floor is the default. -/
def Obligations.RoundingModesDiffer : Prop :=
  (∀ f : ℕ+, ({ fRef := f } : Config.Params).rounding = .floor) ∧
  ∀ f r : Nat, 0 < r →
    (roundedQuotient .floor f r : Int) = ((f : Rat) / (16 * r)).floor ∧
    (roundedQuotient .nearest f r : Int) = ((f : Rat) / (16 * r) + 1 / 2).floor ∧
    (roundedQuotient .floor f r ≠ roundedQuotient .nearest f r ↔ 16 * r ≤ 2 * (f % (16 * r)))

/-- R175: the rate error is the actual rate's distance from the target over the target; it is 0 exactly when 16 times the
rate divides the clock with a quotient in 1 .. 65535, and then both rounding modes give one divisor. -/
def Obligations.ExactRateHasNoError : Prop :=
  ∀ (m : Rounding) (f r : Nat), 0 < r →
    (∀ d q, divCalc m f r = some d → actualRate f d = some q → rateError m f r = some ((q - (r : Rat)) / (r : Rat))) ∧
    (exactRate f r = true ↔ f % (16 * r) = 0 ∧ 1 ≤ f / (16 * r) ∧ f / (16 * r) ≤ 65535) ∧
    (exactRate f r = true ↔ rateError m f r = some 0) ∧
    (exactRate f r = true → divCalc .floor f r = divCalc .nearest f r)

/-- R174: the actual rate times `16 * DL` is the reference clock, and a latch of 0 has no rate. -/
def Obligations.ActualRateTimesDivisorIsClock : Prop :=
  ∀ (f : Nat) (dl : Half), (actualRate f dl = none ↔ dl = 0#16) ∧
    ∀ q, actualRate f dl = some q → q * (16 * (dl.toNat : Rat)) = (f : Rat)

/-! ### The command-decode policy and the host's programs -/

/-- R214, R215: with a well-formed table, every mapped line is the exclusive or of its command bit and its active-low
flag, every other line keeps its old bit, and the mask names the mapped lines. -/
def Obligations.DecodedLinesFollowTable : Prop :=
  ∀ (map : DecodeMap) (cmd old : Byte), mapWf map = true →
    (∀ e ∈ map, (decodeCommand map cmd old).getLsbD e.line =
      Bool.xor (cmd.getLsbD e.bit) (decide (e.polarity = .activeLow))) ∧
    (∀ j : Fin 8, (∀ e ∈ map, e.line ≠ j) → (decodeCommand map cmd old).getLsbD j = old.getLsbD j) ∧
    ∀ j : Fin 8, (mapMask map).getLsbD j = true ↔ ∃ e ∈ map, e.line = j

/-- R218: after decoding, a variant-1 line holds its command bit, and any mapped line the exclusive or of its command bit
and its active-low flag; decoding is idempotent, mapped lines remember no earlier byte, unmapped lines depend on none,
and the full variant-1 table gives the command itself. -/
def Obligations.DecodingHasNoMemory : Prop :=
  ∀ (map : DecodeMap) (c₁ c₂ old : Byte), mapWf map = true →
    (∀ e ∈ map, e.bit = e.line → e.polarity = .activeHigh →
      (decodeCommand map c₁ old).getLsbD e.line = c₁.getLsbD e.line) ∧
    (∀ e ∈ map, (decodeCommand map c₁ old).getLsbD e.line =
      Bool.xor (c₁.getLsbD e.bit) (decide (e.polarity = .activeLow))) ∧
    decodeCommand map c₁ (decodeCommand map c₁ old) = decodeCommand map c₁ old ∧
    decodeCommand map c₂ (decodeCommand map c₁ old) &&& mapMask map = decodeCommand map c₂ old &&& mapMask map ∧
    decodeCommand map c₁ old &&& ~~~(mapMask map) = old &&& ~~~(mapMask map) ∧
    mapMask fullDirectMap = 0xFF#8 ∧ decodeCommand fullDirectMap c₁ old = c₁

/-- The closed forms of the example tables (L2.7, from R212 to R214). -/
def Obligations.ExampleTablesClosedForm : Prop :=
  mapWf mapV1Example = true ∧ mapWf mapV2Example = true ∧ ∀ c o : Byte,
    decodeCommand mapV1Example c o = (o &&& 0xF8#8) ||| (c &&& 0x07#8) ∧
    decodeCommand mapV2Example c o = (o &&& 0xF8#8) ||| ((c &&& 0x07#8) ^^^ 0x01#8)

/-- R216: entered with a byte ready, `DLAB = 0` and no event in between, the handler's four transactions end its spin at
the first poll, read the byte once and write `decode(MAP, RBR, OUT)` to `OUT`, and change nothing else. -/
def Obligations.HandlerWritesDecodedByte : Prop :=
  ∀ (v : HostVariant) (p : Config.Params) (y : System) (hs : List HostProg), mapWf p.map = true →
    y.decoders = handler p.map .done :: hs → y.block.dr = true → y.block.dlab = false →
    ∃ l : Byte, y.run v p [.host, .host, .host, .host] =
      { y with decoders := hs
               block := { y.block with
                 dr := false, out := decodeCommand p.map y.block.rbr y.block.out
                 readLog := y.block.readLog ++ [⟨.lsr, l⟩, ⟨.rbr, y.block.rbr⟩, ⟨.out, y.block.out⟩] } }

/-- R216, R56, R260: in either variant, under the host assumptions R5(a) and R5(b) and with no reset, whatever else
happens between the handler's transactions, at the moment it is done it has read `RBR` once, and `OUT` is
`decode(MAP, c, OUT before)` for the byte c it read. -/
def Obligations.HandlerIsAtomicForOut : Prop :=
  ∀ (v : HostVariant) (p : Config.Params) (ts : List Turn) (y : System), mapWf p.map = true →
    y.decoders = [handler p.map .done] → y.block.dlab = false →
    singleHost ts = true → handlerNotReentered v p ts y = true → noReset ts = true → endsDecoder v p ts y →
    ∃ c : Byte, readsOf .rbr (y.run v p ts).block = readsOf .rbr y.block ++ [c] ∧
      (y.run v p ts).block.out = decodeCommand p.map c y.block.out

/-- R233, R234, R217: a host takes the interrupt exactly when `IRQ = 1` and its own interrupts are enabled, and taking it
begins the handler and changes nothing in the block. A host of the blocking variant never takes it; when idle it runs
the handler body again. -/
def Obligations.TakingInterruptLeavesBlock : Prop :=
  ∀ (p : Config.Params) (y : System),
    (y.intEnable = true → irq y.block = true → y.turn .interrupt p .interrupt =
      { y with decoders := handler p.map .done :: y.decoders, started := y.started ++ [.onByteReceived] }) ∧
    (y.intEnable = false ∨ irq y.block = false → y.turn .interrupt p .interrupt = y) ∧
    y.turn .blocking p .interrupt = y ∧
    (y.decoders = [] → y.ops = [] → y.main = .done → y.turn .interrupt p .host = y ∧
      y.turn .blocking p .host =
        { y with decoders := [handler p.map .done], started := y.started ++ [.onByteReceived] })

/-- R253, R80: in every order R253 admits, from power-on and after a reset of the whole system, with a well-formed table
and no event in between, the boot leaves the latch at `OUT_INIT`, the mapped lines as outputs, the divisor of the
reference rate, one or two stop bits as configured, DLAB 0, both paths enabled, the receive interrupt enabled but in
the blocking variant, and the host idle with its interrupts on; and it calls `initialize` once (R5(d)). -/
def Obligations.BootConfiguresBlock : Prop :=
  ∀ (p : Config.Params) (order : List BootStep), order ∈ bootOrders → mapWf p.map = true →
    ∃ d, divCalc p.rounding p.fRef Config.refRate = some d ∧
      (System.powerOn .interrupt order p).run .interrupt p (List.replicate 9 .host) =
        { block := { State.reset with
            out := p.outInit, dir := mapMask p.map, dl := d, stb := decide (p.stopBits = .two)
            rxen := true, txen := true, erbfi := true }
          ops := [], main := .done, decoders := [], intEnable := true, started := boot .interrupt order p } ∧
      (∀ y : System, y.run .interrupt p (.systemReset order :: List.replicate 9 .host) =
        { block := { after .evReset y.block with
            out := p.outInit, dir := mapMask p.map, dl := d, stb := decide (p.stopBits = .two)
            rxen := true, txen := true, erbfi := true }
          ops := [], main := .done, decoders := [], intEnable := true, started := boot .interrupt order p }) ∧
      (∀ y : System, y.run .blocking p (.systemReset order :: List.replicate 8 .host) =
        { block := { after .evReset y.block with
            out := p.outInit, dir := mapMask p.map, dl := d, stb := decide (p.stopBits = .two)
            rxen := true, txen := true }
          ops := [], main := .done, decoders := [], intEnable := true, started := boot .blocking order p }) ∧
      ∀ v, initialisedOnceFirst (boot v order p) = true

/-- R80: `setline j, v` sets bit j of `OUT` to v and keeps the other seven, in two transactions. -/
def Obligations.SetlineWritesOneBit : Prop :=
  ∀ (v : HostVariant) (p : Config.Params) (y : System) (j : Fin 8) (b : Bool), y.decoders = [] →
    y.main = setline j b .done →
    ∃ o : Byte, y.run v p [.host, .host] =
      { y with main := .done
               block := { y.block with out := o, readLog := y.block.readLog ++ [⟨.out, y.block.out⟩] } } ∧
      ∀ k : Fin 8, o.getLsbD k = if k = j then b else y.block.out.getLsbD k

/-- R50, R52: a bus access outside `BASE .. BASE + 15` does not reach the block, an access in it of a width other than 8
bits sets `REFUSED` and nothing else, and an 8-bit access in it is the transaction at its offset. -/
def Obligations.BusWindowAndWidth : Prop :=
  ∀ (base : Nat) (a : BusAccess) (s : State),
    (a.address < base ∨ base + 16 ≤ a.address → busAccess base a s = s) ∧
    (base ≤ a.address → a.address < base + 16 → a.bits ≠ 8 → busAccess base a s = { s with refused := true }) ∧
    (∀ off : Offset, a.address = base + off.toNat → a.bits = 8 →
      exec (decode s.dlab (busWord a.write off a.data)) s = .next (busAccess base a s))

/-- R173, R211: `initialize` at rate 0, the boot with a table that repeats a line or a bit, and the handler with such a
table set `REFUSED` and change nothing else of the block; `initialize` at any other rate, and any other table, leave
`REFUSED` alone. So do the two checks on their own. What the host drops and keeps then is the model's choice (log
entry 14). -/
def Obligations.BadConfigurationIsRefused : Prop :=
  (∀ (v : HostVariant) (p : Config.Params) (r : Nat) (os : List HostOp) (y : System), y.decoders = [] →
    y.main = .done → y.ops = .initialise r :: os →
    (r = 0 → y.turn v p .host =
      { y with block := { y.block with refused := true }, ops := [], started := y.started ++ [.initialise 0] }) ∧
    (r ≠ 0 → (y.turn v p .host).block.refused = y.block.refused)) ∧
  (∀ (v : HostVariant) (p : Config.Params) (order : List BootStep) (y : System), order ∈ bootOrders →
    (¬ ((p.map.map (·.line)).Nodup ∧ (p.map.map (·.bit)).Nodup) →
      y.run v p [.systemReset order, .host] =
        { block := { after .evReset y.block with refused := true }
          ops := [], main := .done, decoders := [], intEnable := false, started := [.refuseConfiguration] }) ∧
    ((p.map.map (·.line)).Nodup ∧ (p.map.map (·.bit)).Nodup →
      (y.run v p [.systemReset order, .host]).block.refused = y.block.refused)) ∧
  (∀ (v : HostVariant) (p : Config.Params) (hs : List HostProg) (y : System),
    y.decoders = handler p.map .done :: hs →
    (¬ ((p.map.map (·.line)).Nodup ∧ (p.map.map (·.bit)).Nodup) → y.turn v p .host =
      { y with block := { y.block with refused := true }, ops := [], main := .done, decoders := [] }) ∧
    ((p.map.map (·.line)).Nodup ∧ (p.map.map (·.bit)).Nodup →
      (y.turn v p .host).block.refused = y.block.refused)) ∧
  (∀ (m : Rounding) (f r : Nat) (s : State),
    (configureRate m f r s).2 = if r = 0 then { s with refused := true } else s) ∧
  ∀ (map : DecodeMap) (s : State),
    ((map.map (·.line)).Nodup ∧ (map.map (·.bit)).Nodup → configureMap map s = s) ∧
    (¬ ((map.map (·.line)).Nodup ∧ (map.map (·.bit)).Nodup) → configureMap map s = { s with refused := true })
end

