-- ==== Sys2Proof/Laws/Decode.lean ====
section
/-! SUPPORT. The fields of the words the encoder makes, and what the decoder can answer. -/

namespace Sys2Proof

@[simp] theorem kind_busWord (b : Bool) (a : Offset) (d : Byte) : Word.kind (busWord b a d) = false := by
  unfold Word.kind busWord
  simp only [BitVec.getLsbD_append]
  simp

@[simp] theorem isWrite_busWord (b : Bool) (a : Offset) (d : Byte) : Word.isWrite (busWord b a d) = b := by
  unfold Word.isWrite busWord
  simp only [BitVec.getLsbD_append]
  simp

@[simp] theorem offset_busWord (b : Bool) (a : Offset) (d : Byte) : Word.offset (busWord b a d) = a := by
  apply BitVec.eq_of_getLsbD_eq
  intro i hi
  unfold Word.offset busWord
  simp only [BitVec.getLsbD_append, BitVec.getLsbD_extractLsb']
  simp [hi]

@[simp] theorem data_busWord (b : Bool) (a : Offset) (d : Byte) : Word.data (busWord b a d) = d := by
  apply BitVec.eq_of_getLsbD_eq
  intro i hi
  unfold Word.data busWord
  simp only [BitVec.getLsbD_append, BitVec.getLsbD_extractLsb']
  simp [hi]

@[simp] theorem kind_eventWord (e : EventCode) (p : Byte) : Word.kind (eventWord e p) = true := by
  unfold Word.kind eventWord
  simp only [BitVec.getLsbD_append]
  simp

@[simp] theorem event_eventWord (e : EventCode) (p : Byte) : Word.event (eventWord e p) = e := by
  apply BitVec.eq_of_getLsbD_eq
  intro i hi
  unfold Word.event eventWord
  simp only [BitVec.getLsbD_append, BitVec.getLsbD_extractLsb']
  simp [hi]

@[simp] theorem data_eventWord (e : EventCode) (p : Byte) : Word.data (eventWord e p) = p := by
  apply BitVec.eq_of_getLsbD_eq
  intro i hi
  unfold Word.data eventWord
  simp only [BitVec.getLsbD_append, BitVec.getLsbD_extractLsb']
  simp [hi]

/-- Decoding the word of a bus write. -/
@[simp] theorem decode_busWord_true (dlab : Bool) (a : Offset) (d : Byte) :
    decode dlab (busWord true a d) = decodeWrite dlab a d := by
  simp [decode]

/-- Decoding the word of a bus read: the data bits play no part (R72). -/
@[simp] theorem decode_busWord_false (dlab : Bool) (a : Offset) (d : Byte) :
    decode dlab (busWord false a d) = decodeRead dlab a := by
  simp [decode]

/-- Decoding the word of an event. -/
@[simp] theorem decode_eventWord (dlab : Bool) (e : EventCode) (p : Byte) :
    decode dlab (eventWord e p) = decodeEvent e p := by
  simp [decode]

theorem getLsbD_busWord (b : Bool) (a : Offset) (d : Byte) (i : Nat) :
    (busWord b a d).getLsbD i =
      if i < 8 then d.getLsbD i else if i < 12 then a.getLsbD (i - 8) else decide (i = 12) && b := by
  unfold busWord
  simp only [BitVec.getLsbD_append]
  split
  · rfl
  · have h : (i - 8 < 4) = (i < 12) := propext (by omega)
    simp only [h]
    split
    · rfl
    · rcases Nat.lt_trichotomy i 12 with h12 | rfl | h12
      · omega
      · simp
      · have : ¬ (i = 12) := by omega
        have : ¬ (i - 8 - 4 < 1) := by omega
        have : ¬ (i - 8 - 4 = 0) := by omega
        simp [*]

theorem getLsbD_eventWord (e : EventCode) (p : Byte) (i : Nat) :
    (eventWord e p).getLsbD i = if i < 8 then p.getLsbD i else if i < 13 then e.getLsbD (i - 8) else decide (i = 13) := by
  unfold eventWord
  simp only [BitVec.getLsbD_append]
  split
  · rfl
  · have h : (i - 8 < 5) = (i < 13) := propext (by omega)
    simp only [h]
    split
    · rfl
    · rcases Nat.lt_trichotomy i 13 with h13 | rfl | h13
      · omega
      · simp
      · have : ¬ (i = 13) := by omega
        have : ¬ (i - 8 - 5 < 1) := by omega
        have : ¬ (i - 8 - 5 = 0) := by omega
        simp [*]

/-- An event word is the word of its fields (R73). -/
theorem eq_eventWord (w : Word) (h : w.kind = true) : w = eventWord w.event w.data := by
  apply BitVec.eq_of_getLsbD_eq
  intro i hi
  rw [getLsbD_eventWord]
  simp only [Word.event, Word.data, BitVec.getLsbD_extractLsb']
  rcases Nat.lt_or_ge i 8 with h8 | h8
  · simp [h8]
  · rcases Nat.lt_or_ge i 13 with h13 | h13
    · have : i - 8 < 5 := by omega
      have e : 8 + (i - 8) = i := by omega
      simp [Nat.not_lt.mpr h8, h13, this, e]
    · obtain rfl : i = 13 := by omega
      simpa [Word.kind] using h

/-- A bus word is the word of its fields (R71). -/
theorem eq_busWord (w : Word) (h : w.kind = false) : w = busWord w.isWrite w.offset w.data := by
  apply BitVec.eq_of_getLsbD_eq
  intro i hi
  rw [getLsbD_busWord]
  simp only [Word.offset, Word.data, Word.isWrite, BitVec.getLsbD_extractLsb']
  rcases Nat.lt_or_ge i 8 with h8 | h8
  · simp [h8]
  · rcases Nat.lt_or_ge i 12 with h12 | h12
    · have : i - 8 < 4 := by omega
      have e : 8 + (i - 8) = i := by omega
      simp [Nat.not_lt.mpr h8, h12, this, e]
    · rcases Nat.lt_or_ge i 13 with h13 | h13
      · obtain rfl : i = 12 := by omega
        simp
      · obtain rfl : i = 13 := by omega
        simpa [Word.kind] using h

/-- Every word is a bus word or an event word, and which it is decides how it decodes. -/
theorem decode_cases (dlab : Bool) (w : Word) :
    (w.kind = true ∧ decode dlab w = decodeEvent w.event w.data) ∨
    (w.kind = false ∧ w.isWrite = true ∧ decode dlab w = decodeWrite dlab w.offset w.data) ∨
    (w.kind = false ∧ w.isWrite = false ∧ decode dlab w = decodeRead dlab w.offset) := by
  unfold decode
  cases w.kind <;> cases w.isWrite <;> simp

/-- A read decodes to a well-formed stimulus of this mode. -/
theorem decodeRead_wf (dlab : Bool) (a : Offset) :
    (decodeRead dlab a).wf = true ∧ (decodeRead dlab a).fits dlab = true := by
  revert dlab a
  decide

theorem decodeWrite_wf (dlab : Bool) (a : Offset) (d : Byte) :
    (decodeWrite dlab a d).wf = true ∧ (decodeWrite dlab a d).fits dlab = true := by
  obtain ⟨n, hn⟩ : ∃ n : Fin 16, a = BitVec.ofFin n := ⟨a.toFin, by simp⟩
  subst hn
  fin_cases n <;> cases dlab <;> exact ⟨rfl, rfl⟩

theorem decodeEvent_wf (dlab : Bool) (e : EventCode) (p : Byte) :
    (decodeEvent e p).wf = true ∧ (decodeEvent e p).fits dlab = true := by
  obtain ⟨n, hn⟩ : ∃ n : Fin 32, e = BitVec.ofFin n := ⟨e.toFin, by simp⟩
  subst hn
  fin_cases n <;> cases dlab <;> exact ⟨rfl, rfl⟩

/-- Decoding gives only well-formed stimuli of the mode it decodes in. -/
theorem decode_wf (dlab : Bool) (w : Word) :
    (decode dlab w).WellFormed ∧ (decode dlab w).fits dlab = true := by
  rcases decode_cases dlab w with ⟨-, h⟩ | ⟨-, -, h⟩ | ⟨-, -, h⟩ <;> rw [h]
  · exact decodeEvent_wf dlab _ _
  · exact decodeWrite_wf dlab _ _
  · exact decodeRead_wf dlab _

end Sys2Proof
end

