-- ==== Sys2Proof/Laws/State.lean ====
section
/-! SUPPORT. One lemma per field per named update of the state: what the field reads after it. -/

namespace Sys2Proof.Machine.State

variable (s : State)

/-! ### `answer` -/

@[simp] theorem answer_rbr (r : ReadReg) (v : Byte) : (s.answer r v).rbr = s.rbr := rfl
@[simp] theorem answer_dr (r : ReadReg) (v : Byte) : (s.answer r v).dr = s.dr := rfl
@[simp] theorem answer_thr (r : ReadReg) (v : Byte) : (s.answer r v).thr = s.thr := rfl
@[simp] theorem answer_thre (r : ReadReg) (v : Byte) : (s.answer r v).thre = s.thre := rfl
@[simp] theorem answer_tsr (r : ReadReg) (v : Byte) : (s.answer r v).tsr = s.tsr := rfl
@[simp] theorem answer_tsrBusy (r : ReadReg) (v : Byte) : (s.answer r v).tsrBusy = s.tsrBusy := rfl
@[simp] theorem answer_erbfi (r : ReadReg) (v : Byte) : (s.answer r v).erbfi = s.erbfi := rfl
@[simp] theorem answer_stb (r : ReadReg) (v : Byte) : (s.answer r v).stb = s.stb := rfl
@[simp] theorem answer_dlab (r : ReadReg) (v : Byte) : (s.answer r v).dlab = s.dlab := rfl
@[simp] theorem answer_rxen (r : ReadReg) (v : Byte) : (s.answer r v).rxen = s.rxen := rfl
@[simp] theorem answer_txen (r : ReadReg) (v : Byte) : (s.answer r v).txen = s.txen := rfl
@[simp] theorem answer_dl (r : ReadReg) (v : Byte) : (s.answer r v).dl = s.dl := rfl
@[simp] theorem answer_out (r : ReadReg) (v : Byte) : (s.answer r v).out = s.out := rfl
@[simp] theorem answer_dir (r : ReadReg) (v : Byte) : (s.answer r v).dir = s.dir := rfl
@[simp] theorem answer_txdLog (r : ReadReg) (v : Byte) : (s.answer r v).txdLog = s.txdLog := rfl
@[simp] theorem answer_refused (r : ReadReg) (v : Byte) : (s.answer r v).refused = s.refused := rfl
@[simp] theorem answer_readLog (r : ReadReg) (v : Byte) : (s.answer r v).readLog = s.readLog ++ [⟨r, v⟩] := rfl
@[simp] theorem answer_draws (r : ReadReg) (v : Byte) : (s.answer r v).draws = s.draws := rfl
@[simp] theorem answer_schedule (r : ReadReg) (v : Byte) : (s.answer r v).schedule = s.schedule := rfl

/-! ### `receive` -/

@[simp] theorem receive_rbr (p : Byte) : (s.receive p).rbr = p := rfl
@[simp] theorem receive_dr (p : Byte) : (s.receive p).dr = true := rfl
@[simp] theorem receive_thr (p : Byte) : (s.receive p).thr = s.thr := rfl
@[simp] theorem receive_thre (p : Byte) : (s.receive p).thre = s.thre := rfl
@[simp] theorem receive_tsr (p : Byte) : (s.receive p).tsr = s.tsr := rfl
@[simp] theorem receive_tsrBusy (p : Byte) : (s.receive p).tsrBusy = s.tsrBusy := rfl
@[simp] theorem receive_erbfi (p : Byte) : (s.receive p).erbfi = s.erbfi := rfl
@[simp] theorem receive_stb (p : Byte) : (s.receive p).stb = s.stb := rfl
@[simp] theorem receive_dlab (p : Byte) : (s.receive p).dlab = s.dlab := rfl
@[simp] theorem receive_rxen (p : Byte) : (s.receive p).rxen = s.rxen := rfl
@[simp] theorem receive_txen (p : Byte) : (s.receive p).txen = s.txen := rfl
@[simp] theorem receive_dl (p : Byte) : (s.receive p).dl = s.dl := rfl
@[simp] theorem receive_out (p : Byte) : (s.receive p).out = s.out := rfl
@[simp] theorem receive_dir (p : Byte) : (s.receive p).dir = s.dir := rfl
@[simp] theorem receive_txdLog (p : Byte) : (s.receive p).txdLog = s.txdLog := rfl
@[simp] theorem receive_refused (p : Byte) : (s.receive p).refused = s.refused := rfl
@[simp] theorem receive_readLog (p : Byte) : (s.receive p).readLog = s.readLog := rfl
@[simp] theorem receive_draws (p : Byte) : (s.receive p).draws = s.draws := rfl
@[simp] theorem receive_schedule (p : Byte) : (s.receive p).schedule = s.schedule := rfl

/-! ### `clearDr` -/

@[simp] theorem clearDr_rbr : s.clearDr.rbr = s.rbr := rfl
@[simp] theorem clearDr_dr : s.clearDr.dr = false := rfl
@[simp] theorem clearDr_thr : s.clearDr.thr = s.thr := rfl
@[simp] theorem clearDr_thre : s.clearDr.thre = s.thre := rfl
@[simp] theorem clearDr_tsr : s.clearDr.tsr = s.tsr := rfl
@[simp] theorem clearDr_tsrBusy : s.clearDr.tsrBusy = s.tsrBusy := rfl
@[simp] theorem clearDr_erbfi : s.clearDr.erbfi = s.erbfi := rfl
@[simp] theorem clearDr_stb : s.clearDr.stb = s.stb := rfl
@[simp] theorem clearDr_dlab : s.clearDr.dlab = s.dlab := rfl
@[simp] theorem clearDr_rxen : s.clearDr.rxen = s.rxen := rfl
@[simp] theorem clearDr_txen : s.clearDr.txen = s.txen := rfl
@[simp] theorem clearDr_dl : s.clearDr.dl = s.dl := rfl
@[simp] theorem clearDr_out : s.clearDr.out = s.out := rfl
@[simp] theorem clearDr_dir : s.clearDr.dir = s.dir := rfl
@[simp] theorem clearDr_txdLog : s.clearDr.txdLog = s.txdLog := rfl
@[simp] theorem clearDr_refused : s.clearDr.refused = s.refused := rfl
@[simp] theorem clearDr_readLog : s.clearDr.readLog = s.readLog := rfl
@[simp] theorem clearDr_draws : s.clearDr.draws = s.draws := rfl
@[simp] theorem clearDr_schedule : s.clearDr.schedule = s.schedule := rfl

/-! ### `fillThr` -/

@[simp] theorem fillThr_rbr (d : Byte) : (s.fillThr d).rbr = s.rbr := rfl
@[simp] theorem fillThr_dr (d : Byte) : (s.fillThr d).dr = s.dr := rfl
@[simp] theorem fillThr_thr (d : Byte) : (s.fillThr d).thr = d := rfl
@[simp] theorem fillThr_thre (d : Byte) : (s.fillThr d).thre = false := rfl
@[simp] theorem fillThr_tsr (d : Byte) : (s.fillThr d).tsr = s.tsr := rfl
@[simp] theorem fillThr_tsrBusy (d : Byte) : (s.fillThr d).tsrBusy = s.tsrBusy := rfl
@[simp] theorem fillThr_erbfi (d : Byte) : (s.fillThr d).erbfi = s.erbfi := rfl
@[simp] theorem fillThr_stb (d : Byte) : (s.fillThr d).stb = s.stb := rfl
@[simp] theorem fillThr_dlab (d : Byte) : (s.fillThr d).dlab = s.dlab := rfl
@[simp] theorem fillThr_rxen (d : Byte) : (s.fillThr d).rxen = s.rxen := rfl
@[simp] theorem fillThr_txen (d : Byte) : (s.fillThr d).txen = s.txen := rfl
@[simp] theorem fillThr_dl (d : Byte) : (s.fillThr d).dl = s.dl := rfl
@[simp] theorem fillThr_out (d : Byte) : (s.fillThr d).out = s.out := rfl
@[simp] theorem fillThr_dir (d : Byte) : (s.fillThr d).dir = s.dir := rfl
@[simp] theorem fillThr_txdLog (d : Byte) : (s.fillThr d).txdLog = s.txdLog := rfl
@[simp] theorem fillThr_refused (d : Byte) : (s.fillThr d).refused = s.refused := rfl
@[simp] theorem fillThr_readLog (d : Byte) : (s.fillThr d).readLog = s.readLog := rfl
@[simp] theorem fillThr_draws (d : Byte) : (s.fillThr d).draws = s.draws := rfl
@[simp] theorem fillThr_schedule (d : Byte) : (s.fillThr d).schedule = s.schedule := rfl

/-! ### `loadTsr` -/

@[simp] theorem loadTsr_rbr : s.loadTsr.rbr = s.rbr := rfl
@[simp] theorem loadTsr_dr : s.loadTsr.dr = s.dr := rfl
@[simp] theorem loadTsr_thr : s.loadTsr.thr = s.thr := rfl
@[simp] theorem loadTsr_thre : s.loadTsr.thre = true := rfl
@[simp] theorem loadTsr_tsr : s.loadTsr.tsr = s.thr := rfl
@[simp] theorem loadTsr_tsrBusy : s.loadTsr.tsrBusy = true := rfl
@[simp] theorem loadTsr_erbfi : s.loadTsr.erbfi = s.erbfi := rfl
@[simp] theorem loadTsr_stb : s.loadTsr.stb = s.stb := rfl
@[simp] theorem loadTsr_dlab : s.loadTsr.dlab = s.dlab := rfl
@[simp] theorem loadTsr_rxen : s.loadTsr.rxen = s.rxen := rfl
@[simp] theorem loadTsr_txen : s.loadTsr.txen = s.txen := rfl
@[simp] theorem loadTsr_dl : s.loadTsr.dl = s.dl := rfl
@[simp] theorem loadTsr_out : s.loadTsr.out = s.out := rfl
@[simp] theorem loadTsr_dir : s.loadTsr.dir = s.dir := rfl
@[simp] theorem loadTsr_txdLog : s.loadTsr.txdLog = s.txdLog := rfl
@[simp] theorem loadTsr_refused : s.loadTsr.refused = s.refused := rfl
@[simp] theorem loadTsr_readLog : s.loadTsr.readLog = s.readLog := rfl
@[simp] theorem loadTsr_draws : s.loadTsr.draws = s.draws := rfl
@[simp] theorem loadTsr_schedule : s.loadTsr.schedule = s.schedule := rfl

/-! ### `emitTsr` -/

@[simp] theorem emitTsr_rbr : s.emitTsr.rbr = s.rbr := rfl
@[simp] theorem emitTsr_dr : s.emitTsr.dr = s.dr := rfl
@[simp] theorem emitTsr_thr : s.emitTsr.thr = s.thr := rfl
@[simp] theorem emitTsr_thre : s.emitTsr.thre = s.thre := rfl
@[simp] theorem emitTsr_tsr : s.emitTsr.tsr = s.tsr := rfl
@[simp] theorem emitTsr_tsrBusy : s.emitTsr.tsrBusy = false := rfl
@[simp] theorem emitTsr_erbfi : s.emitTsr.erbfi = s.erbfi := rfl
@[simp] theorem emitTsr_stb : s.emitTsr.stb = s.stb := rfl
@[simp] theorem emitTsr_dlab : s.emitTsr.dlab = s.dlab := rfl
@[simp] theorem emitTsr_rxen : s.emitTsr.rxen = s.rxen := rfl
@[simp] theorem emitTsr_txen : s.emitTsr.txen = s.txen := rfl
@[simp] theorem emitTsr_dl : s.emitTsr.dl = s.dl := rfl
@[simp] theorem emitTsr_out : s.emitTsr.out = s.out := rfl
@[simp] theorem emitTsr_dir : s.emitTsr.dir = s.dir := rfl
@[simp] theorem emitTsr_txdLog : s.emitTsr.txdLog = s.txdLog ++ [s.tsr] := rfl
@[simp] theorem emitTsr_refused : s.emitTsr.refused = s.refused := rfl
@[simp] theorem emitTsr_readLog : s.emitTsr.readLog = s.readLog := rfl
@[simp] theorem emitTsr_draws : s.emitTsr.draws = s.draws := rfl
@[simp] theorem emitTsr_schedule : s.emitTsr.schedule = s.schedule := rfl

/-! ### `setErbfi` -/

@[simp] theorem setErbfi_rbr (b : Bool) : (s.setErbfi b).rbr = s.rbr := rfl
@[simp] theorem setErbfi_dr (b : Bool) : (s.setErbfi b).dr = s.dr := rfl
@[simp] theorem setErbfi_thr (b : Bool) : (s.setErbfi b).thr = s.thr := rfl
@[simp] theorem setErbfi_thre (b : Bool) : (s.setErbfi b).thre = s.thre := rfl
@[simp] theorem setErbfi_tsr (b : Bool) : (s.setErbfi b).tsr = s.tsr := rfl
@[simp] theorem setErbfi_tsrBusy (b : Bool) : (s.setErbfi b).tsrBusy = s.tsrBusy := rfl
@[simp] theorem setErbfi_erbfi (b : Bool) : (s.setErbfi b).erbfi = b := rfl
@[simp] theorem setErbfi_stb (b : Bool) : (s.setErbfi b).stb = s.stb := rfl
@[simp] theorem setErbfi_dlab (b : Bool) : (s.setErbfi b).dlab = s.dlab := rfl
@[simp] theorem setErbfi_rxen (b : Bool) : (s.setErbfi b).rxen = s.rxen := rfl
@[simp] theorem setErbfi_txen (b : Bool) : (s.setErbfi b).txen = s.txen := rfl
@[simp] theorem setErbfi_dl (b : Bool) : (s.setErbfi b).dl = s.dl := rfl
@[simp] theorem setErbfi_out (b : Bool) : (s.setErbfi b).out = s.out := rfl
@[simp] theorem setErbfi_dir (b : Bool) : (s.setErbfi b).dir = s.dir := rfl
@[simp] theorem setErbfi_txdLog (b : Bool) : (s.setErbfi b).txdLog = s.txdLog := rfl
@[simp] theorem setErbfi_refused (b : Bool) : (s.setErbfi b).refused = s.refused := rfl
@[simp] theorem setErbfi_readLog (b : Bool) : (s.setErbfi b).readLog = s.readLog := rfl
@[simp] theorem setErbfi_draws (b : Bool) : (s.setErbfi b).draws = s.draws := rfl
@[simp] theorem setErbfi_schedule (b : Bool) : (s.setErbfi b).schedule = s.schedule := rfl

/-! ### `setLcr` -/

@[simp] theorem setLcr_rbr (b c : Bool) : (s.setLcr b c).rbr = s.rbr := rfl
@[simp] theorem setLcr_dr (b c : Bool) : (s.setLcr b c).dr = s.dr := rfl
@[simp] theorem setLcr_thr (b c : Bool) : (s.setLcr b c).thr = s.thr := rfl
@[simp] theorem setLcr_thre (b c : Bool) : (s.setLcr b c).thre = s.thre := rfl
@[simp] theorem setLcr_tsr (b c : Bool) : (s.setLcr b c).tsr = s.tsr := rfl
@[simp] theorem setLcr_tsrBusy (b c : Bool) : (s.setLcr b c).tsrBusy = s.tsrBusy := rfl
@[simp] theorem setLcr_erbfi (b c : Bool) : (s.setLcr b c).erbfi = s.erbfi := rfl
@[simp] theorem setLcr_stb (b c : Bool) : (s.setLcr b c).stb = b := rfl
@[simp] theorem setLcr_dlab (b c : Bool) : (s.setLcr b c).dlab = c := rfl
@[simp] theorem setLcr_rxen (b c : Bool) : (s.setLcr b c).rxen = s.rxen := rfl
@[simp] theorem setLcr_txen (b c : Bool) : (s.setLcr b c).txen = s.txen := rfl
@[simp] theorem setLcr_dl (b c : Bool) : (s.setLcr b c).dl = s.dl := rfl
@[simp] theorem setLcr_out (b c : Bool) : (s.setLcr b c).out = s.out := rfl
@[simp] theorem setLcr_dir (b c : Bool) : (s.setLcr b c).dir = s.dir := rfl
@[simp] theorem setLcr_txdLog (b c : Bool) : (s.setLcr b c).txdLog = s.txdLog := rfl
@[simp] theorem setLcr_refused (b c : Bool) : (s.setLcr b c).refused = s.refused := rfl
@[simp] theorem setLcr_readLog (b c : Bool) : (s.setLcr b c).readLog = s.readLog := rfl
@[simp] theorem setLcr_draws (b c : Bool) : (s.setLcr b c).draws = s.draws := rfl
@[simp] theorem setLcr_schedule (b c : Bool) : (s.setLcr b c).schedule = s.schedule := rfl

/-! ### `setEnr` -/

@[simp] theorem setEnr_rbr (b c : Bool) : (s.setEnr b c).rbr = s.rbr := rfl
@[simp] theorem setEnr_dr (b c : Bool) : (s.setEnr b c).dr = s.dr := rfl
@[simp] theorem setEnr_thr (b c : Bool) : (s.setEnr b c).thr = s.thr := rfl
@[simp] theorem setEnr_thre (b c : Bool) : (s.setEnr b c).thre = s.thre := rfl
@[simp] theorem setEnr_tsr (b c : Bool) : (s.setEnr b c).tsr = s.tsr := rfl
@[simp] theorem setEnr_tsrBusy (b c : Bool) : (s.setEnr b c).tsrBusy = s.tsrBusy := rfl
@[simp] theorem setEnr_erbfi (b c : Bool) : (s.setEnr b c).erbfi = s.erbfi := rfl
@[simp] theorem setEnr_stb (b c : Bool) : (s.setEnr b c).stb = s.stb := rfl
@[simp] theorem setEnr_dlab (b c : Bool) : (s.setEnr b c).dlab = s.dlab := rfl
@[simp] theorem setEnr_rxen (b c : Bool) : (s.setEnr b c).rxen = b := rfl
@[simp] theorem setEnr_txen (b c : Bool) : (s.setEnr b c).txen = c := rfl
@[simp] theorem setEnr_dl (b c : Bool) : (s.setEnr b c).dl = s.dl := rfl
@[simp] theorem setEnr_out (b c : Bool) : (s.setEnr b c).out = s.out := rfl
@[simp] theorem setEnr_dir (b c : Bool) : (s.setEnr b c).dir = s.dir := rfl
@[simp] theorem setEnr_txdLog (b c : Bool) : (s.setEnr b c).txdLog = s.txdLog := rfl
@[simp] theorem setEnr_refused (b c : Bool) : (s.setEnr b c).refused = s.refused := rfl
@[simp] theorem setEnr_readLog (b c : Bool) : (s.setEnr b c).readLog = s.readLog := rfl
@[simp] theorem setEnr_draws (b c : Bool) : (s.setEnr b c).draws = s.draws := rfl
@[simp] theorem setEnr_schedule (b c : Bool) : (s.setEnr b c).schedule = s.schedule := rfl

/-! ### `setDl` -/

@[simp] theorem setDl_rbr (v : Half) : (s.setDl v).rbr = s.rbr := rfl
@[simp] theorem setDl_dr (v : Half) : (s.setDl v).dr = s.dr := rfl
@[simp] theorem setDl_thr (v : Half) : (s.setDl v).thr = s.thr := rfl
@[simp] theorem setDl_thre (v : Half) : (s.setDl v).thre = s.thre := rfl
@[simp] theorem setDl_tsr (v : Half) : (s.setDl v).tsr = s.tsr := rfl
@[simp] theorem setDl_tsrBusy (v : Half) : (s.setDl v).tsrBusy = s.tsrBusy := rfl
@[simp] theorem setDl_erbfi (v : Half) : (s.setDl v).erbfi = s.erbfi := rfl
@[simp] theorem setDl_stb (v : Half) : (s.setDl v).stb = s.stb := rfl
@[simp] theorem setDl_dlab (v : Half) : (s.setDl v).dlab = s.dlab := rfl
@[simp] theorem setDl_rxen (v : Half) : (s.setDl v).rxen = s.rxen := rfl
@[simp] theorem setDl_txen (v : Half) : (s.setDl v).txen = s.txen := rfl
@[simp] theorem setDl_dl (v : Half) : (s.setDl v).dl = v := rfl
@[simp] theorem setDl_out (v : Half) : (s.setDl v).out = s.out := rfl
@[simp] theorem setDl_dir (v : Half) : (s.setDl v).dir = s.dir := rfl
@[simp] theorem setDl_txdLog (v : Half) : (s.setDl v).txdLog = s.txdLog := rfl
@[simp] theorem setDl_refused (v : Half) : (s.setDl v).refused = s.refused := rfl
@[simp] theorem setDl_readLog (v : Half) : (s.setDl v).readLog = s.readLog := rfl
@[simp] theorem setDl_draws (v : Half) : (s.setDl v).draws = s.draws := rfl
@[simp] theorem setDl_schedule (v : Half) : (s.setDl v).schedule = s.schedule := rfl

/-! ### `setOut` -/

@[simp] theorem setOut_rbr (d : Byte) : (s.setOut d).rbr = s.rbr := rfl
@[simp] theorem setOut_dr (d : Byte) : (s.setOut d).dr = s.dr := rfl
@[simp] theorem setOut_thr (d : Byte) : (s.setOut d).thr = s.thr := rfl
@[simp] theorem setOut_thre (d : Byte) : (s.setOut d).thre = s.thre := rfl
@[simp] theorem setOut_tsr (d : Byte) : (s.setOut d).tsr = s.tsr := rfl
@[simp] theorem setOut_tsrBusy (d : Byte) : (s.setOut d).tsrBusy = s.tsrBusy := rfl
@[simp] theorem setOut_erbfi (d : Byte) : (s.setOut d).erbfi = s.erbfi := rfl
@[simp] theorem setOut_stb (d : Byte) : (s.setOut d).stb = s.stb := rfl
@[simp] theorem setOut_dlab (d : Byte) : (s.setOut d).dlab = s.dlab := rfl
@[simp] theorem setOut_rxen (d : Byte) : (s.setOut d).rxen = s.rxen := rfl
@[simp] theorem setOut_txen (d : Byte) : (s.setOut d).txen = s.txen := rfl
@[simp] theorem setOut_dl (d : Byte) : (s.setOut d).dl = s.dl := rfl
@[simp] theorem setOut_out (d : Byte) : (s.setOut d).out = d := rfl
@[simp] theorem setOut_dir (d : Byte) : (s.setOut d).dir = s.dir := rfl
@[simp] theorem setOut_txdLog (d : Byte) : (s.setOut d).txdLog = s.txdLog := rfl
@[simp] theorem setOut_refused (d : Byte) : (s.setOut d).refused = s.refused := rfl
@[simp] theorem setOut_readLog (d : Byte) : (s.setOut d).readLog = s.readLog := rfl
@[simp] theorem setOut_draws (d : Byte) : (s.setOut d).draws = s.draws := rfl
@[simp] theorem setOut_schedule (d : Byte) : (s.setOut d).schedule = s.schedule := rfl

/-! ### `setDir` -/

@[simp] theorem setDir_rbr (d : Byte) : (s.setDir d).rbr = s.rbr := rfl
@[simp] theorem setDir_dr (d : Byte) : (s.setDir d).dr = s.dr := rfl
@[simp] theorem setDir_thr (d : Byte) : (s.setDir d).thr = s.thr := rfl
@[simp] theorem setDir_thre (d : Byte) : (s.setDir d).thre = s.thre := rfl
@[simp] theorem setDir_tsr (d : Byte) : (s.setDir d).tsr = s.tsr := rfl
@[simp] theorem setDir_tsrBusy (d : Byte) : (s.setDir d).tsrBusy = s.tsrBusy := rfl
@[simp] theorem setDir_erbfi (d : Byte) : (s.setDir d).erbfi = s.erbfi := rfl
@[simp] theorem setDir_stb (d : Byte) : (s.setDir d).stb = s.stb := rfl
@[simp] theorem setDir_dlab (d : Byte) : (s.setDir d).dlab = s.dlab := rfl
@[simp] theorem setDir_rxen (d : Byte) : (s.setDir d).rxen = s.rxen := rfl
@[simp] theorem setDir_txen (d : Byte) : (s.setDir d).txen = s.txen := rfl
@[simp] theorem setDir_dl (d : Byte) : (s.setDir d).dl = s.dl := rfl
@[simp] theorem setDir_out (d : Byte) : (s.setDir d).out = s.out := rfl
@[simp] theorem setDir_dir (d : Byte) : (s.setDir d).dir = d := rfl
@[simp] theorem setDir_txdLog (d : Byte) : (s.setDir d).txdLog = s.txdLog := rfl
@[simp] theorem setDir_refused (d : Byte) : (s.setDir d).refused = s.refused := rfl
@[simp] theorem setDir_readLog (d : Byte) : (s.setDir d).readLog = s.readLog := rfl
@[simp] theorem setDir_draws (d : Byte) : (s.setDir d).draws = s.draws := rfl
@[simp] theorem setDir_schedule (d : Byte) : (s.setDir d).schedule = s.schedule := rfl

/-! ### `refuse` -/

@[simp] theorem refuse_rbr : s.refuse.rbr = s.rbr := rfl
@[simp] theorem refuse_dr : s.refuse.dr = s.dr := rfl
@[simp] theorem refuse_thr : s.refuse.thr = s.thr := rfl
@[simp] theorem refuse_thre : s.refuse.thre = s.thre := rfl
@[simp] theorem refuse_tsr : s.refuse.tsr = s.tsr := rfl
@[simp] theorem refuse_tsrBusy : s.refuse.tsrBusy = s.tsrBusy := rfl
@[simp] theorem refuse_erbfi : s.refuse.erbfi = s.erbfi := rfl
@[simp] theorem refuse_stb : s.refuse.stb = s.stb := rfl
@[simp] theorem refuse_dlab : s.refuse.dlab = s.dlab := rfl
@[simp] theorem refuse_rxen : s.refuse.rxen = s.rxen := rfl
@[simp] theorem refuse_txen : s.refuse.txen = s.txen := rfl
@[simp] theorem refuse_dl : s.refuse.dl = s.dl := rfl
@[simp] theorem refuse_out : s.refuse.out = s.out := rfl
@[simp] theorem refuse_dir : s.refuse.dir = s.dir := rfl
@[simp] theorem refuse_txdLog : s.refuse.txdLog = s.txdLog := rfl
@[simp] theorem refuse_refused : s.refuse.refused = true := rfl
@[simp] theorem refuse_readLog : s.refuse.readLog = s.readLog := rfl
@[simp] theorem refuse_draws : s.refuse.draws = s.draws := rfl
@[simp] theorem refuse_schedule : s.refuse.schedule = s.schedule := rfl

/-! ### `setSchedule` -/

@[simp] theorem setSchedule_rbr (ws : List Word) : (s.setSchedule ws).rbr = s.rbr := rfl
@[simp] theorem setSchedule_dr (ws : List Word) : (s.setSchedule ws).dr = s.dr := rfl
@[simp] theorem setSchedule_thr (ws : List Word) : (s.setSchedule ws).thr = s.thr := rfl
@[simp] theorem setSchedule_thre (ws : List Word) : (s.setSchedule ws).thre = s.thre := rfl
@[simp] theorem setSchedule_tsr (ws : List Word) : (s.setSchedule ws).tsr = s.tsr := rfl
@[simp] theorem setSchedule_tsrBusy (ws : List Word) : (s.setSchedule ws).tsrBusy = s.tsrBusy := rfl
@[simp] theorem setSchedule_erbfi (ws : List Word) : (s.setSchedule ws).erbfi = s.erbfi := rfl
@[simp] theorem setSchedule_stb (ws : List Word) : (s.setSchedule ws).stb = s.stb := rfl
@[simp] theorem setSchedule_dlab (ws : List Word) : (s.setSchedule ws).dlab = s.dlab := rfl
@[simp] theorem setSchedule_rxen (ws : List Word) : (s.setSchedule ws).rxen = s.rxen := rfl
@[simp] theorem setSchedule_txen (ws : List Word) : (s.setSchedule ws).txen = s.txen := rfl
@[simp] theorem setSchedule_dl (ws : List Word) : (s.setSchedule ws).dl = s.dl := rfl
@[simp] theorem setSchedule_out (ws : List Word) : (s.setSchedule ws).out = s.out := rfl
@[simp] theorem setSchedule_dir (ws : List Word) : (s.setSchedule ws).dir = s.dir := rfl
@[simp] theorem setSchedule_txdLog (ws : List Word) : (s.setSchedule ws).txdLog = s.txdLog := rfl
@[simp] theorem setSchedule_refused (ws : List Word) : (s.setSchedule ws).refused = s.refused := rfl
@[simp] theorem setSchedule_readLog (ws : List Word) : (s.setSchedule ws).readLog = s.readLog := rfl
@[simp] theorem setSchedule_draws (ws : List Word) : (s.setSchedule ws).draws = s.draws := rfl
@[simp] theorem setSchedule_schedule (ws : List Word) : (s.setSchedule ws).schedule = ws := rfl

/-! ### `hardReset` -/

@[simp] theorem hardReset_rbr : s.hardReset.rbr = Config.rbrDraw s.draws := rfl
@[simp] theorem hardReset_dr : s.hardReset.dr = false := rfl
@[simp] theorem hardReset_thr : s.hardReset.thr = Config.thrDraw s.draws := rfl
@[simp] theorem hardReset_thre : s.hardReset.thre = true := rfl
@[simp] theorem hardReset_tsr : s.hardReset.tsr = Config.tsrDraw s.draws := rfl
@[simp] theorem hardReset_tsrBusy : s.hardReset.tsrBusy = false := rfl
@[simp] theorem hardReset_erbfi : s.hardReset.erbfi = false := rfl
@[simp] theorem hardReset_stb : s.hardReset.stb = false := rfl
@[simp] theorem hardReset_dlab : s.hardReset.dlab = false := rfl
@[simp] theorem hardReset_rxen : s.hardReset.rxen = false := rfl
@[simp] theorem hardReset_txen : s.hardReset.txen = false := rfl
@[simp] theorem hardReset_dl : s.hardReset.dl = 0x0000#16 := rfl
@[simp] theorem hardReset_out : s.hardReset.out = 0x00#8 := rfl
@[simp] theorem hardReset_dir : s.hardReset.dir = 0x00#8 := rfl
@[simp] theorem hardReset_txdLog : s.hardReset.txdLog = s.txdLog := rfl
@[simp] theorem hardReset_refused : s.hardReset.refused = s.refused := rfl
@[simp] theorem hardReset_readLog : s.hardReset.readLog = s.readLog := rfl
@[simp] theorem hardReset_draws : s.hardReset.draws = s.draws + 1 := rfl
@[simp] theorem hardReset_schedule : s.hardReset.schedule = s.schedule := rfl

end Sys2Proof.Machine.State
end

