-- ==== Sys2Proof/Laws/Exec.lean ====
section
/-! SUPPORT. What one stimulus and one step can do: every stimulus answers a next state, and the state it answers. -/

namespace Sys2Proof.Machine

@[simp] theorem after_rdRbr (s : State) : after .rdRbr s = (s.answer .rbr s.rbr).clearDr := rfl
@[simp] theorem after_wrThr (d : Byte) (s : State) : after (.wrThr d) s = s.fillThr d := rfl
@[simp] theorem after_rdDll (s : State) : after .rdDll s = s.answer .dll (lowByte s.dl) := rfl
@[simp] theorem after_wrDll (d : Byte) (s : State) : after (.wrDll d) s = s.setDl (joinBytes (highByte s.dl) d) := rfl
@[simp] theorem after_rdIer (s : State) : after .rdIer s = s.answer .ier (ierValue s) := rfl
@[simp] theorem after_wrIer (d : Byte) (s : State) : after (.wrIer d) s = s.setErbfi (d.getLsbD 0) := rfl
@[simp] theorem after_rdDlm (s : State) : after .rdDlm s = s.answer .dlm (highByte s.dl) := rfl
@[simp] theorem after_wrDlm (d : Byte) (s : State) : after (.wrDlm d) s = s.setDl (joinBytes d (lowByte s.dl)) := rfl
@[simp] theorem after_rdRsv (a : Offset) (s : State) : after (.rdRsv a) s = s.answer .rsv reservedValue := rfl
@[simp] theorem after_wrRsv (a : Offset) (d : Byte) (s : State) : after (.wrRsv a d) s = s := rfl
@[simp] theorem after_rdLcr (s : State) : after .rdLcr s = s.answer .lcr (lcrValue s) := rfl
@[simp] theorem after_wrLcr (d : Byte) (s : State) : after (.wrLcr d) s = s.setLcr (d.getLsbD 2) (d.getLsbD 7) := rfl
@[simp] theorem after_rdEnr (s : State) : after .rdEnr s = s.answer .enr (enrValue s) := rfl
@[simp] theorem after_wrEnr (d : Byte) (s : State) : after (.wrEnr d) s = s.setEnr (d.getLsbD 0) (d.getLsbD 1) := rfl
@[simp] theorem after_rdLsr (s : State) : after .rdLsr s = s.answer .lsr (lsrValue s) := rfl
@[simp] theorem after_wrLsr (d : Byte) (s : State) : after (.wrLsr d) s = s := rfl
@[simp] theorem after_rdOut (s : State) : after .rdOut s = s.answer .out s.out := rfl
@[simp] theorem after_wrOut (d : Byte) (s : State) : after (.wrOut d) s = s.setOut d := rfl
@[simp] theorem after_rdDir (s : State) : after .rdDir s = s.answer .dir s.dir := rfl
@[simp] theorem after_wrDir (d : Byte) (s : State) : after (.wrDir d) s = s.setDir d := rfl
@[simp] theorem after_evReset (s : State) : after .evReset s = s.hardReset := rfl
@[simp] theorem after_evRsv (e : EventCode) (s : State) : after (.evRsv e) s = s.refuse := rfl

theorem after_rxFrame (p : Byte) (s : State) :
    after (.rxFrame p) s = if rxActive s then s.receive p else s := by
  simp only [after, exec, execRxFrame]
  cases rxActive s <;> rfl

theorem after_txLoad (s : State) : after .txLoad s = if txLoadEnabled s then s.loadTsr else s := by
  simp only [after, exec, execTxLoad]
  cases txLoadEnabled s <;> rfl

theorem after_txDone (s : State) : after .txDone s = if txDoneEnabled s then s.emitTsr else s := by
  simp only [after, exec, execTxDone]
  cases txDoneEnabled s <;> rfl

@[simp] theorem after_rxFrame_active (p : Byte) (s : State) (h : rxActive s = true) :
    after (.rxFrame p) s = s.receive p := by
  simp [after_rxFrame, h]

@[simp] theorem after_txLoad_enabled (s : State) (h : txLoadEnabled s = true) : after .txLoad s = s.loadTsr := by
  simp [after_txLoad, h]

@[simp] theorem after_txDone_enabled (s : State) (h : txDoneEnabled s = true) : after .txDone s = s.emitTsr := by
  simp [after_txDone, h]

/-- No stimulus stops the machine: `exec` answers the state `after` names. -/
theorem exec_eq (i : Instr) (s : State) : exec i s = .next (after i s) := by
  cases i
  case rxFrame p => simp only [after, exec, execRxFrame]; split <;> rfl
  case txLoad => simp only [after, exec, execTxLoad]; split <;> rfl
  case txDone => simp only [after, exec, execTxDone]; split <;> rfl
  all_goals rfl

theorem exec_next_iff (i : Instr) (s t : State) : exec i s = .next t ↔ t = after i s := by
  rw [exec_eq]
  constructor
  · intro h
    cases h
    rfl
  · rintro rfl
    rfl

/-- A step with a stimulus waiting runs it. -/
theorem step_cons (s : State) (w : Word) (ws : List Word) (h : s.schedule = w :: ws) :
    step s = .next (deliver w (s.setSchedule ws)) := by
  simp [step, nextStimulus, h, deliver, exec_eq]

/-- A step with no stimulus waiting: the engine's enabled event, or nothing. -/
theorem step_nil (s : State) (h : s.schedule = []) :
    step s = .next (match engineStimulus s with
      | none => s
      | some w => deliver w s) := by
  simp only [step, nextStimulus, h]
  cases engineStimulus s <;> simp [deliver, exec_eq]

/-- Everything a step can do: nothing, or one stimulus in the state its schedule leaves. -/
theorem step_cases (s : State) :
    step s = .next s ∨ ∃ w ws, step s = .next (deliver w (s.setSchedule ws)) := by
  cases h : s.schedule with
  | cons w ws => exact .inr ⟨w, ws, step_cons s w ws h⟩
  | nil =>
    rw [step_nil s h]
    cases engineStimulus s with
    | none => exact .inl rfl
    | some w =>
      refine .inr ⟨w, [], ?_⟩
      have : s.setSchedule [] = s := by
        cases s
        cases h
        rfl
      rw [this]

end Sys2Proof.Machine
end

