-- ==== Sys2Proof/Laws/Operands.lean ====
section
/-! SUPPORT. The bits of the values registers read as, and the bytes of the divisor latch. -/

namespace Sys2Proof.Machine

/-- Bit by bit, LSR as read (R24). -/
theorem getLsbD_lsrValue (s : State) (i : Nat) :
    (lsrValue s).getLsbD i =
      (decide (i = 0) && s.dr || decide (i = 5) && s.thre || decide (i = 6) && temt s) := by
  rcases Nat.lt_or_ge i 8 with h | h
  · unfold lsrValue
    interval_cases i <;> cases temt s <;> cases s.thre <;> cases s.dr <;> rfl
  · rw [BitVec.getLsbD_of_ge _ _ h]
    have h0 : ¬ i = 0 := by omega
    have h5 : ¬ i = 5 := by omega
    have h6 : ¬ i = 6 := by omega
    simp [*]

theorem getLsbD_ierValue (s : State) (i : Nat) : (ierValue s).getLsbD i = (decide (i = 0) && s.erbfi) := by
  rcases Nat.lt_or_ge i 8 with h | h
  · unfold ierValue
    interval_cases i <;> cases s.erbfi <;> rfl
  · rw [BitVec.getLsbD_of_ge _ _ h]
    have h0 : ¬ i = 0 := by omega
    simp [*]

theorem getLsbD_lcrValue (s : State) (i : Nat) :
    (lcrValue s).getLsbD i =
      (decide (i = 0) || decide (i = 1) || decide (i = 2) && s.stb || decide (i = 7) && s.dlab) := by
  rcases Nat.lt_or_ge i 8 with h | h
  · unfold lcrValue
    interval_cases i <;> cases s.stb <;> cases s.dlab <;> rfl
  · rw [BitVec.getLsbD_of_ge _ _ h]
    have h0 : ¬ i = 0 := by omega
    have h1 : ¬ i = 1 := by omega
    have h2 : ¬ i = 2 := by omega
    have h7 : ¬ i = 7 := by omega
    simp [*]

theorem getLsbD_enrValue (s : State) (i : Nat) :
    (enrValue s).getLsbD i = (decide (i = 0) && s.rxen || decide (i = 1) && s.txen) := by
  rcases Nat.lt_or_ge i 8 with h | h
  · unfold enrValue
    interval_cases i <;> cases s.rxen <;> cases s.txen <;> rfl
  · rw [BitVec.getLsbD_of_ge _ _ h]
    have h0 : ¬ i = 0 := by omega
    have h1 : ¬ i = 1 := by omega
    simp [*]

theorem getLsbD_joinBytes (hi lo : Byte) (i : Nat) :
    (joinBytes hi lo).getLsbD i = if i < 8 then lo.getLsbD i else hi.getLsbD (i - 8) := by
  unfold joinBytes
  rw [BitVec.getLsbD_append]

@[simp] theorem lowByte_joinBytes (hi lo : Byte) : lowByte (joinBytes hi lo) = lo := by
  apply BitVec.eq_of_getLsbD_eq
  intro i h
  unfold lowByte
  rw [BitVec.getLsbD_extractLsb', getLsbD_joinBytes]
  simp [h]

@[simp] theorem highByte_joinBytes (hi lo : Byte) : highByte (joinBytes hi lo) = hi := by
  apply BitVec.eq_of_getLsbD_eq
  intro i h
  unfold highByte
  rw [BitVec.getLsbD_extractLsb', getLsbD_joinBytes]
  simp [h]

@[simp] theorem joinBytes_high_low (v : Half) : joinBytes (highByte v) (lowByte v) = v := by
  apply BitVec.eq_of_getLsbD_eq
  intro i h
  rw [getLsbD_joinBytes]
  unfold lowByte highByte
  simp only [BitVec.getLsbD_extractLsb']
  split
  · simp [*]
  · have : i - 8 < 8 := by omega
    have e : 8 + (i - 8) = i := by omega
    simp [this, e]

theorem toNat_joinBytes (hi lo : Byte) : (joinBytes hi lo).toNat = 256 * hi.toNat + lo.toNat := by
  have h : (joinBytes hi lo).toNat = hi.toNat <<< 8 ||| lo.toNat := BitVec.toNat_append hi lo
  rw [h, ← Nat.shiftLeft_add_eq_or_of_lt lo.isLt, Nat.shiftLeft_eq]
  omega

theorem toNat_lowByte (v : Half) : (lowByte v).toNat = v.toNat % 256 := by
  simp [lowByte, BitVec.extractLsb'_toNat]

theorem toNat_highByte (v : Half) : (highByte v).toNat = v.toNat / 256 := by
  have := v.isLt
  simp only [highByte, BitVec.extractLsb'_toNat, Nat.shiftRight_eq_div_pow]
  omega

end Sys2Proof.Machine
end

