-- ==== Sys2Proof/Laws/PerInstr.lean ====
section
/-! SUPPORT. The family EncodeKind: for each stimulus, the kind and the write bit of its word (R70, R71, R73). -/

namespace Sys2Proof.Laws.EncodeKind

/-- The word of a stimulus has `K = 1` exactly for an event, and the ignored bits of a read are 0 (R70, R72). -/
def Statement (i : Instr) : Prop :=
  (encode i).kind = i.isEvent ∧ (i.isEvent = false → (encode i).isWrite = false → (encode i).data = 0)

theorem rdRbr : Statement .rdRbr := by simp [Statement, encode, Instr.isEvent]
theorem wrThr (d : Byte) : Statement (.wrThr d) := by simp [Statement, encode, Instr.isEvent]
theorem rdDll : Statement .rdDll := by simp [Statement, encode, Instr.isEvent]
theorem wrDll (d : Byte) : Statement (.wrDll d) := by simp [Statement, encode, Instr.isEvent]
theorem rdIer : Statement .rdIer := by simp [Statement, encode, Instr.isEvent]
theorem wrIer (d : Byte) : Statement (.wrIer d) := by simp [Statement, encode, Instr.isEvent]
theorem rdDlm : Statement .rdDlm := by simp [Statement, encode, Instr.isEvent]
theorem wrDlm (d : Byte) : Statement (.wrDlm d) := by simp [Statement, encode, Instr.isEvent]
theorem rdRsv (a : Offset) : Statement (.rdRsv a) := by simp [Statement, encode, Instr.isEvent]
theorem wrRsv (a : Offset) (d : Byte) : Statement (.wrRsv a d) := by simp [Statement, encode, Instr.isEvent]
theorem rdLcr : Statement .rdLcr := by simp [Statement, encode, Instr.isEvent]
theorem wrLcr (d : Byte) : Statement (.wrLcr d) := by simp [Statement, encode, Instr.isEvent]
theorem rdEnr : Statement .rdEnr := by simp [Statement, encode, Instr.isEvent]
theorem wrEnr (d : Byte) : Statement (.wrEnr d) := by simp [Statement, encode, Instr.isEvent]
theorem rdLsr : Statement .rdLsr := by simp [Statement, encode, Instr.isEvent]
theorem wrLsr (d : Byte) : Statement (.wrLsr d) := by simp [Statement, encode, Instr.isEvent]
theorem rdOut : Statement .rdOut := by simp [Statement, encode, Instr.isEvent]
theorem wrOut (d : Byte) : Statement (.wrOut d) := by simp [Statement, encode, Instr.isEvent]
theorem rdDir : Statement .rdDir := by simp [Statement, encode, Instr.isEvent]
theorem wrDir (d : Byte) : Statement (.wrDir d) := by simp [Statement, encode, Instr.isEvent]
theorem evReset : Statement .evReset := by simp [Statement, encode, Instr.isEvent]
theorem rxFrame (p : Byte) : Statement (.rxFrame p) := by simp [Statement, encode, Instr.isEvent]
theorem txLoad : Statement .txLoad := by simp [Statement, encode, Instr.isEvent]
theorem txDone : Statement .txDone := by simp [Statement, encode, Instr.isEvent]
theorem evRsv (e : EventCode) : Statement (.evRsv e) := by simp [Statement, encode, Instr.isEvent]

end Sys2Proof.Laws.EncodeKind
end

