-- ==== Sys2Proof/Laws/System.lean ====
section
/-! SUPPORT. What a bus transaction of the host does at each offset, what one turn of the host does, and what the host
assumptions of R5 give. -/

namespace Sys2Proof.Machine

/-! ### Bus transactions by offset -/

@[simp] theorem lastRead_answer (s : State) (r : ReadReg) (v : Byte) : (s.answer r v).lastRead = v := by
  simp [State.lastRead, State.answer]

@[simp] theorem lastRead_clearDr (s : State) : s.clearDr.lastRead = s.lastRead := rfl

theorem deliver_read (a : Offset) (x : Byte) (s : State) :
    deliver (busWord false a x) s = after (decodeRead s.dlab a) s := by
  simp [deliver]

theorem deliver_write (a : Offset) (d : Byte) (s : State) :
    deliver (busWord true a d) s = after (decodeWrite s.dlab a d) s := by
  simp [deliver]

theorem deliver_event (e : EventCode) (x : Byte) (s : State) :
    deliver (eventWord e x) s = after (decodeEvent e x) s := by
  simp [deliver]

@[simp] theorem busRead_lsr (s : State) : busRead offLsr s = (lsrValue s, s.answer .lsr (lsrValue s)) := by
  simp [busRead, deliver_read, offLsr, decodeRead]

@[simp] theorem busRead_out (s : State) : busRead offOut s = (s.out, s.answer .out s.out) := by
  simp [busRead, deliver_read, offOut, decodeRead]

@[simp] theorem busRead_dir (s : State) : busRead offDir s = (s.dir, s.answer .dir s.dir) := by
  simp [busRead, deliver_read, offDir, decodeRead]

theorem busRead_rbr (s : State) (h : s.dlab = false) : busRead offRbr s = (s.rbr, (s.answer .rbr s.rbr).clearDr) := by
  simp [busRead, deliver_read, offRbr, decodeRead, h]

@[simp] theorem busWrite_lcr (d : Byte) (s : State) : busWrite offLcr d s = s.setLcr (d.getLsbD 2) (d.getLsbD 7) := by
  simp [busWrite, deliver_write, offLcr, decodeWrite]

@[simp] theorem busWrite_enr (d : Byte) (s : State) : busWrite offEnr d s = s.setEnr (d.getLsbD 0) (d.getLsbD 1) := by
  simp [busWrite, deliver_write, offEnr, decodeWrite]

@[simp] theorem busWrite_out (d : Byte) (s : State) : busWrite offOut d s = s.setOut d := by
  simp [busWrite, deliver_write, offOut, decodeWrite]

@[simp] theorem busWrite_dir (d : Byte) (s : State) : busWrite offDir d s = s.setDir d := by
  simp [busWrite, deliver_write, offDir, decodeWrite]

theorem busWrite_ier (d : Byte) (s : State) (h : s.dlab = false) : busWrite offIer d s = s.setErbfi (d.getLsbD 0) := by
  simp [busWrite, deliver_write, offIer, decodeWrite, h]

theorem busWrite_dll (d : Byte) (s : State) (h : s.dlab = true) :
    busWrite offDll d s = s.setDl (joinBytes (highByte s.dl) d) := by
  simp [busWrite, deliver_write, offDll, decodeWrite, h]

theorem busWrite_dlm (d : Byte) (s : State) (h : s.dlab = true) :
    busWrite offDlm d s = s.setDl (joinBytes d (lowByte s.dl)) := by
  simp [busWrite, deliver_write, offDlm, decodeWrite, h]

/-! ### Who writes OUT -/

/-- Only WR_OUT and EV_RESET write `OUT` (R56, R195). -/
theorem after_out (i : Instr) (s : State) (hw : ∀ d, i ≠ .wrOut d) (hr : i ≠ .evReset) : (after i s).out = s.out := by
  cases i
  case wrOut d => exact absurd rfl (hw d)
  case evReset => exact absurd rfl hr
  case rxFrame p => rw [after_rxFrame]; split <;> rfl
  case txLoad => rw [after_txLoad]; split <;> rfl
  case txDone => rw [after_txDone]; split <;> rfl
  all_goals rfl

theorem decodeRead_ne_reset (b : Bool) (a : Offset) : decodeRead b a ≠ .evReset ∧ ∀ d, decodeRead b a ≠ .wrOut d := by
  unfold decodeRead
  split <;> (try split) <;> simp

theorem decodeWrite_ne_reset (b : Bool) (a : Offset) (d : Byte) : decodeWrite b a d ≠ .evReset := by
  unfold decodeWrite
  split <;> (try split) <;> simp

theorem decodeWrite_wrOut (b : Bool) (a : Offset) (d x : Byte) (h : decodeWrite b a d = .wrOut x) : a = offOut := by
  unfold decodeWrite at h
  split at h <;> first
    | (apply BitVec.eq_of_toNat_eq; assumption)
    | (split at h <;> cases h)
    | cases h

theorem decodeEvent_ne_wrOut (e : EventCode) (x d : Byte) : decodeEvent e x ≠ .wrOut d := by
  unfold decodeEvent
  split <;> simp

theorem decodeEvent_ne_reset (e : EventCode) (x : Byte) (h : e ≠ 0b00000#5) : decodeEvent e x ≠ .evReset := by
  unfold decodeEvent
  split
  case h_1 h0 => exact absurd (BitVec.eq_of_toNat_eq h0) h
  all_goals simp

theorem deliver_read_keeps_out (a : Offset) (x : Byte) (s : State) : (deliver (busWord false a x) s).out = s.out := by
  rw [deliver_read]
  exact after_out _ _ (decodeRead_ne_reset _ _).2 (decodeRead_ne_reset _ _).1

theorem busRead_keeps_out (a : Offset) (s : State) : (busRead a s).2.out = s.out := deliver_read_keeps_out a 0 s

theorem busWrite_keeps_out (a : Offset) (d : Byte) (s : State) (h : a ≠ offOut) : (busWrite a d s).out = s.out := by
  rw [busWrite, deliver_write]
  exact after_out _ _ (fun x hx => h (decodeWrite_wrOut _ _ _ _ hx)) (decodeWrite_ne_reset _ _ _)

/-- A program's next action leaves `OUT`, unless it writes it. -/
theorem effect_keeps_out (h : HostProg) (s : State) (hn : h.writesTo offOut = false) : (h.effect s).out = s.out := by
  cases h with
  | done | refuse | enableInterrupts k => rfl
  | read a k => exact busRead_keeps_out a s
  | poll a b k => exact busRead_keeps_out a s
  | write a d k => exact busWrite_keeps_out a d s (by simpa [HostProg.writesTo] using hn)

/-! ### One turn -/

@[simp] theorem begin_block (p : Config.Params) (y : System) : (y.begin p).block = y.block := by
  unfold System.begin
  split
  · rfl
  · split <;> rfl

@[simp] theorem run_nil (v : HostVariant) (p : Config.Params) (y : System) : y.run v p [] = y := rfl

@[simp] theorem run_cons (v : HostVariant) (p : Config.Params) (t : Turn) (ts : List Turn) (y : System) :
    y.run v p (t :: ts) = (y.turn v p t).run v p ts := rfl

/-- With an invocation of the decoder running, the host's turn is its next action. -/
theorem hostTurn_decoder (v : HostVariant) (p : Config.Params) (y : System) (h : HostProg) (hs : List HostProg)
    (hd : y.decoders = h :: hs) : hostTurn v p y = y.decoderTurn h hs := by
  simp [hostTurn, hd]

/-- With none running, the host's turn is the main thread's. -/
theorem hostTurn_main (v : HostVariant) (p : Config.Params) (y : System) (hd : y.decoders = []) :
    hostTurn v p y = (y.begin p).mainTurn v p := by
  simp [hostTurn, hd]

/-- While an operation of the main thread is under way, the next one does not begin. -/
theorem begin_of_busy (p : Config.Params) (y : System) (h : y.main.isDone = false) : y.begin p = y := by
  unfold System.begin
  split
  · rfl
  · simp [h]

/-- An action of the main thread that neither is the last nor refuses. -/
theorem mainTurn_act (v : HostVariant) (p : Config.Params) (y : System) (h1 : y.main.isDone = false)
    (h2 : y.main.refuses = false) : y.mainTurn v p =
      { y with block := y.main.effect y.block, main := y.main.rest y.block
               intEnable := y.intEnable || y.main.enables } := by
  simp [System.mainTurn, h1, h2]

/-- The handler of a well-formed table (R216). -/
theorem handler_of_wf (map : DecodeMap) (k : HostProg) (h : mapWf map = true) :
    handler map k = .poll offLsr 0 (.read offRbr fun c => .read offOut fun o =>
      .write offOut (decodeCommand map c o) k) := by
  simp [handler, h, rxbyte]

/-- Under R5(c), while the boot is over and no decoder runs, a turn that resets nothing leaves `OUT`. -/
theorem out_kept_between_decoders (v : HostVariant) (p : Config.Params) (t : Turn) (y : System)
    (hc : Safety.foreignWriteOfOut p t y = false) (hr : Safety.noReset [t] = true) (hd : y.decoders = [])
    (hi : y.intEnable = true) : (y.turn v p t).block.out = y.block.out := by
  cases t with
  | host =>
    have hn : (y.begin p).main.writesTo offOut = false := by simpa [Safety.foreignWriteOfOut, hd, hi] using hc
    simp only [System.turn, hostTurn_main v p y hd, System.mainTurn]
    split
    · cases v <;> simp [System.enterDecoder]
    · split
      · simp [System.halt, State.refuse]
      · simpa using effect_keeps_out _ y.block hn
  | interrupt => simp only [System.turn]; split <;> rfl
  | event e x =>
    have he : e ≠ 0b00000#5 := by simpa [Safety.noReset] using hr
    simp only [System.turn, deliver_event]
    exact after_out _ _ (decodeEvent_ne_wrOut e x) (decodeEvent_ne_reset e x he)
  | other w a d =>
    simp only [System.turn]
    cases w with
    | false => exact deliver_read_keeps_out a d y.block
    | true => exact busWrite_keeps_out a d y.block (by simpa [Safety.foreignWriteOfOut] using hc)
  | systemReset o => simp [Safety.noReset] at hr

end Sys2Proof.Machine
end

