-- ==== Sys2Proof/Tests/Slice0.lean ====
section
/-! SUPPORT. Tests against the spec's own vectors (spec/95_test_vectors.md and the rules' examples), the well-formedness
smoke, and a witness for the hypotheses of each statement. -/

namespace Sys2Proof.Tests

open Sys2Proof.Machine Sys2Proof.Safety

/-- "Configured" of spec/95_test_vectors.md: `ENR = 0x03`, `DL = 0x000D`, `DLAB = 0`. -/
def configured : State := { State.reset with rxen := true, txen := true, dl := 0x000D#16 }

/-- A byte waits in `THR`. -/
def thrFull : State := { configured with thr := 0x41#8, thre := false }

/-- A byte is being sent. -/
def sending : State := { configured with tsr := 0x41#8, tsrBusy := true }

/-- A byte waits to be read. -/
def received : State := { configured with rbr := 0x41#8, dr := true }

/-! ### Well-formedness -/

theorem test_wf_reserved_read : (Instr.rdRsv 0x3#4).wf = false ∧ (Instr.rdRsv 0x7#4).wf = true := by decide
theorem test_wf_reserved_write : (Instr.wrRsv 0x0#4 0x55#8).wf = false ∧ (Instr.wrRsv 0xA#4 0x55#8).wf = true := by decide
theorem test_wf_reserved_event : (Instr.evRsv 0b00001#5).wf = false ∧ (Instr.evRsv 0b00100#5).wf = true := by decide
theorem test_fits_mode : Instr.rdRbr.fits true = false ∧ Instr.rdDll.fits false = false ∧ Instr.rdLcr.fits true = true := by
  decide

/-! ### Decoding: words written out from R70 to R77 and L2.1 -/

-- receive family: {0,0,0000,x}, {0,0,0101,x}, {0,0,0001,x}, {0,1,0001,d}, {1,00001,p}
theorem test_decode_rd_rbr : decode false 0b00000000000000#14 = .rdRbr := by decide
theorem test_decode_rd_lsr : decode true 0b00010100000000#14 = .rdLsr := by decide
theorem test_decode_rd_ier : decode false 0b00000100000000#14 = .rdIer := by decide
theorem test_decode_wr_ier : decode false 0b01000100000001#14 = .wrIer 0x01#8 := by decide
theorem test_decode_rx_frame : decode false 0b10000101000001#14 = .rxFrame 0x41#8 := by decide
-- transmit family
theorem test_decode_wr_thr : decode false 0b01000001000001#14 = .wrThr 0x41#8 := by decide
theorem test_decode_tx_load : decode true 0b10001001010101#14 = .txLoad := by decide
theorem test_decode_tx_done : decode false 0b10001100000000#14 = .txDone := by decide
-- line configuration family
theorem test_decode_rd_dll : decode true 0b00000000000000#14 = .rdDll := by decide
theorem test_decode_wr_dll : decode true 0b01000000001101#14 = .wrDll 0x0D#8 := by decide
theorem test_decode_rd_dlm : decode true 0b00000100000000#14 = .rdDlm := by decide
theorem test_decode_wr_dlm : decode true 0b01000100000001#14 = .wrDlm 0x01#8 := by decide
theorem test_decode_rd_lcr : decode false 0b00001100000000#14 = .rdLcr := by decide
theorem test_decode_wr_lcr : decode true 0b01001110000011#14 = .wrLcr 0x83#8 := by decide
theorem test_decode_rd_enr : decode false 0b00010000000000#14 = .rdEnr := by decide
theorem test_decode_wr_enr : decode false 0b01010000000011#14 = .wrEnr 0x03#8 := by decide
theorem test_decode_wr_lsr : decode false 0b01010111111111#14 = .wrLsr 0xFF#8 := by decide
theorem test_decode_rd_rsv : decode true 0b00110100000000#14 = .rdRsv 0xD#4 := by decide
theorem test_decode_wr_rsv : decode true 0b01101000000000#14 = .wrRsv 0xA#4 0x00#8 := by decide
-- GPIO family
theorem test_decode_rd_out : decode true 0b00100000000000#14 = .rdOut := by decide
theorem test_decode_wr_out : decode false 0b01100000001000#14 = .wrOut 0x08#8 := by decide
theorem test_decode_rd_dir : decode false 0b00100100000000#14 = .rdDir := by decide
theorem test_decode_wr_dir : decode false 0b01100100000111#14 = .wrDir 0x07#8 := by decide
-- events of no data path
theorem test_decode_ev_reset : decode true 0b10000011111111#14 = .evReset := by decide
theorem test_decode_ev_rsv : decode false 0b11111111111111#14 = .evRsv 0b11111#5 := by decide
theorem test_decode_rejects_wider : decodeNumber false 0x4000 = .error .widerThanStimulus := by decide
theorem test_decode_table_word : decodeTableWord 16 0x2100 = some (.rxFrame 0) ∧ decodeTableWord 16 0x4000 = none := by
  decide

/-! ### One step each, from the vectors of L2 -/

-- R-4, R-6, R-1
theorem test_rx_frame : (after (.rxFrame 0x41#8) configured).rbr = 0x41#8 ∧ (after (.rxFrame 0x41#8) configured).dr = true := by
  decide
theorem test_rx_frame_dropped : (after (.rxFrame 0x41#8) State.reset).dr = false := by decide
theorem test_rd_rbr : (after .rdRbr received).readLog = [⟨.rbr, 0x41#8⟩] ∧ (after .rdRbr received).dr = false := by decide
-- R102's examples: 0x61 and 0x00; R-16: 0x21
theorem test_rd_lsr : (after .rdLsr received).readLog = [⟨.lsr, 0x61#8⟩] := by decide
theorem test_rd_lsr_busy : lsrValue { received with tsrBusy := true } = 0x21#8 ∧
    lsrValue { thrFull with tsrBusy := true } = 0x00#8 := by decide
-- R-12, R-10
theorem test_wr_ier : ierValue (after (.wrIer 0xFF#8) State.reset) = 0x01#8 := by decide
theorem test_wr_ier_raises_irq : irq received = false ∧ irq (after (.wrIer 0x01#8) received) = true := by decide
theorem test_rd_ier : (after .rdIer State.reset).readLog = [⟨.ier, 0x00#8⟩] := by decide
-- T-1, T-2, T-3, T-11
theorem test_wr_thr : lsrValue (after (.wrThr 0x41#8) configured) = 0x00#8 := by decide
theorem test_tx_load : (after .txLoad thrFull).tsr = 0x41#8 ∧ lsrValue (after .txLoad thrFull) = 0x20#8 := by decide
theorem test_tx_load_disabled : after .txLoad configured = configured := rfl
theorem test_tx_done : (after .txDone sending).txdLog = [0x41#8] ∧ lsrValue (after .txDone sending) = 0x60#8 := by decide
theorem test_tx_done_disabled : (after .txDone { sending with txen := false }).tsrBusy = true := by decide
-- C-2, C-4, C-1
theorem test_wr_lcr : lcrValue (after (.wrLcr 0xFF#8) State.reset) = 0x87#8 := by decide
theorem test_wr_lcr_parity : lcrValue (after (.wrLcr 0x08#8) State.reset) = 0x03#8 := by decide
theorem test_rd_lcr : (after .rdLcr State.reset).readLog = [⟨.lcr, 0x03#8⟩] := by decide
-- C-6
theorem test_wr_enr : enrValue (after (.wrEnr 0xFF#8) State.reset) = 0x03#8 := by decide
theorem test_rd_enr : (after .rdEnr { State.reset with txen := true }).readLog = [⟨.enr, 0x02#8⟩] := by decide
-- R145, R147 examples: DL = 0x1234; R146, R148 and C-11
theorem test_rd_dll : (after .rdDll { State.reset with dl := 0x1234#16 }).readLog = [⟨.dll, 0x34#8⟩] := by decide
theorem test_rd_dlm : (after .rdDlm { State.reset with dl := 0x1234#16 }).readLog = [⟨.dlm, 0x12#8⟩] := by decide
theorem test_wr_dll : (after (.wrDll 0x0D#8) { State.reset with dl := 0x1200#16 }).dl = 0x120D#16 := by decide
theorem test_wr_dlm : (after (.wrDlm 0x01#8) { State.reset with dl := 0x00FF#16 }).dl = 0x01FF#16 := by decide
-- C-12, C-14, C-15
theorem test_wr_lsr : lsrValue (after (.wrLsr 0x00#8) received) = 0x61#8 := by decide
theorem test_rd_rsv : (after (.rdRsv 0x2#4) received).readLog = [⟨.rsv, 0x00#8⟩] := by decide
theorem test_wr_rsv : after (.wrRsv 0x7#4 0x55#8) received = received := rfl
-- G-2, G-3, G-5
theorem test_wr_out : (after (.wrOut 0x05#8) State.reset).out = 0x05#8 ∧ pin (after (.wrOut 0x05#8) State.reset) 0 = .z := by
  decide
theorem test_rd_out : (after .rdOut { State.reset with out := 0x05#8 }).readLog = [⟨.out, 0x05#8⟩] := by decide
theorem test_wr_dir : [7, 3, 2, 1, 0].map (pin (after (.wrDir 0x07#8) { State.reset with out := 0x05#8 })) =
    [.z, .z, .high, .low, .high] := by decide
theorem test_rd_dir : (after .rdDir { State.reset with dir := 0x07#8 }).readLog = [⟨.dir, 0x07#8⟩] := by decide
-- X-2, X-4, G-8
theorem test_ev_reset : (after .evReset { received with erbfi := true }).dr = false ∧
    lsrValue (after .evReset sending) = 0x60#8 := by decide
theorem test_ev_reset_keeps_refused : (after .evReset { received with refused := true }).refused = true := by decide
theorem test_ev_rsv : (after (.evRsv 0b01011#5) configured).refused = true := by decide
-- the step: a placed word runs (L1.6's first frame), and an idle engine sends
theorem test_step_placed : step (State.reset.withFetchWord 16 0x1903) = .next { State.reset with dir := 0x03#8 } := rfl
theorem test_step_idle : step thrFull = .next (after .txLoad thrFull) := rfl
theorem test_reset_is_ev_reset : after .evReset { State.reset with draws := 0 } = State.reset := rfl

/-! ### The calculator, the decode policy and the assembler -/

-- L2.6
theorem test_div_exact : divCalc .floor 1843200 4800 = some 24#16 ∧ divCalc .nearest 1000000 9600 = some 7#16 := by decide
theorem test_div_clamped : divCalc .floor 1000000 115200 = some 1#16 ∧ divCalc .floor 1843200 1 = some 65535#16 ∧
    divCalc .nearest 24 1 = some 2#16 ∧ divCalc .floor 8000000 0 = none := by decide
theorem test_exact : exactRate 32 1 = true ∧ exactRate 1843200 1 = false ∧ exactRate 1000000 4800 = false := by decide
theorem test_actual_rate : actualRate 1000000 13#16 = some (62500 / 13) := by
  simp [actualRate]
  norm_num
theorem test_rate_error : rateError .floor 1000000 4800 = some (1 / 624) := by
  have h : divCalc .floor 1000000 4800 = some 13#16 := by decide
  simp [rateError, h, actualRate]
  norm_num
-- L1.1, L1.2, L2.7
theorem test_decode_v1 : decodeCommand mapV1Example 0x03#8 0x00#8 = 0x03#8 ∧ decodeCommand mapV1Example 0x04#8 0xF0#8 = 0xF4#8 := by
  decide
theorem test_decode_v2 : decodeCommand mapV2Example 0x00#8 0x00#8 = 0x01#8 ∧ decodeCommand mapV2Example 0xFF#8 0xA0#8 = 0xA6#8 := by
  decide
theorem test_decode_other_bit : decodeCommand [⟨0, 7, .activeHigh⟩] 0x80#8 0x00#8 = 0x01#8 ∧ mapMask mapV2Example = 0x07#8 := by
  decide
theorem test_map_refused : mapWf [⟨0, 0, .activeHigh⟩, ⟨0, 1, .activeHigh⟩] = false ∧
    mapWf [⟨0, 0, .activeHigh⟩, ⟨1, 0, .activeLow⟩] = false ∧ mapWf [] = true := by decide
-- R79: "wr LCR, 0x83", "ev rx 0b11 # c", "rd THR", "wr OUT, 256"
theorem test_assemble_wr : assemble ['w', 'r', ' ', 'L', 'C', 'R', ',', ' ', '0', 'x', '8', '3'] = .ok (some 0x1383#14) := by
  rfl
theorem test_assemble_rx : assemble ['e', 'v', ' ', 'r', 'x', ' ', '0', 'b', '1', '1', ' ', '#', 'c'] = .ok (some 0x2103#14) := by
  rfl
theorem test_assemble_bad : assemble ['r', 'd', ' ', 'T', 'H', 'R'] = .error .badRegister ∧
    assemble ['w', 'r', ' ', 'O', 'U', 'T', ',', '2', '5', '6'] = .error .badImmediate := ⟨rfl, rfl⟩
theorem test_bus_outside : reachesBlock 0x40 0x3F = false ∧ reachesBlock 0x40 0x4F = true ∧ reachesBlock 0x40 0x50 = false := by
  decide

/-! ### Witnesses: the hypotheses of the statements can be met together -/

theorem witness_step_decoded : (State.reset.withFetchWord 16 0x1041).schedule = 0x1041#14 :: [] := rfl
theorem witness_idle_engine : thrFull.schedule = [] ∧ thrFull.thre = false ∧ thrFull.tsrBusy = false ∧ thrFull.txen = true ∧
    thrFull.dl ≠ 0#16 ∧ sending.tsrBusy = true ∧ State.reset.txen = false := by decide
theorem witness_round_trip : (Instr.wrRsv 0xF#4 0xFF#8).WellFormed ∧ (Instr.wrRsv 0xF#4 0xFF#8).fits true = true ∧
    (Instr.evRsv 0b00100#5).WellFormed := by decide
theorem witness_read_words : (0x00A7#14 : Word).getLsbD 13 = false ∧ (0x00A7#14 : Word).getLsbD 12 = false ∧
    (0x00A7#14 : Word).extractLsb' 8 6 = (0x0000#14 : Word).extractLsb' 8 6 := by decide
theorem witness_canonical_read : (encode (.rdRsv 0x2#4)).getLsbD 13 = false ∧ (encode (.rdRsv 0x2#4)).getLsbD 12 = false := by
  decide
theorem witness_reset_abandons : exec .evReset sending = .next (after .evReset sending) ∧
    bytesWritten [.txLoad, .txDone, .rdLsr] = [] := ⟨rfl, rfl⟩
theorem witness_rx : configured.rxen = true ∧ configured.dl ≠ 0#16 ∧ State.reset.rxen = false := by decide
theorem witness_dr_writers : exec (.rxFrame 0x41#8) configured = .next (after (.rxFrame 0x41#8) configured) ∧
    configured.dr = false ∧ (after (.rxFrame 0x41#8) configured).dr = true ∧
    exec .rdRbr received = .next (after .rdRbr received) ∧ received.dr = true ∧ (after .rdRbr received).dr = false :=
  ⟨rfl, rfl, rfl, rfl, rfl, rfl⟩
theorem witness_rbr_writers : exec (.rxFrame 0x42#8) received = .next (after (.rxFrame 0x42#8) received) ∧
    (after (.rxFrame 0x42#8) received).rbr ≠ received.rbr := ⟨rfl, by decide⟩
theorem witness_irq_falls : exec .rdRbr { received with erbfi := true } = .next (after .rdRbr { received with erbfi := true }) ∧
    irq { received with erbfi := true } = true ∧ irq (after .rdRbr { received with erbfi := true }) = false := ⟨rfl, rfl, rfl⟩
theorem witness_receive_order :
    holdsThroughout rxActive [.rxFrame 0x11#8, .rdLsr, .rdRbr, .rxFrame 0x22#8, .rdRbr] configured = true ∧
    receiveEvents [.rxFrame 0x11#8, .rdLsr, .rdRbr, .rxFrame 0x22#8, .rdRbr] =
      [0x11#8, 0x22#8].flatMap (fun p => [.rxFrame p, .rdRbr]) := ⟨by decide, by decide⟩
theorem witness_tx_load : thrFull.thre = false ∧ thrFull.tsrBusy = false ∧ thrFull.txen = true ∧ thrFull.dl ≠ 0#16 := by decide
theorem witness_tx_done : sending.tsrBusy = true ∧ sending.txen = true ∧ sending.dl ≠ 0#16 := by decide
theorem witness_tx_disabled : configured.thre = true ∧ configured.tsrBusy = false := by decide
theorem witness_run_records : exec .txDone sending = .next (after .txDone sending) ∧
    exec (.evRsv 0b00100#5) configured = .next (after (.evRsv 0b00100#5) configured) ∧ configured.refused = false ∧
    (after (.evRsv 0b00100#5) configured).refused = true ∧
    exec .evReset { configured with refused := true } = .next (after .evReset { configured with refused := true }) :=
  ⟨rfl, rfl, rfl, rfl, rfl⟩
theorem witness_transmit_order :
    writesThrOnlyWhenEmpty [.wrThr 0x48#8, .txLoad, .wrThr 0x69#8, .txDone] configured = true ∧
    Instr.evReset ∉ [Instr.wrThr 0x48#8, .txLoad, .wrThr 0x69#8, .txDone] := ⟨by decide, by decide⟩

/-- An endless run that sends the byte in `THR`: TX_LOAD, TX_DONE, then nothing. -/
def sendingRun : EndlessRun :=
  { state := fun n => match n with
      | 0 => thrFull
      | 1 => after .txLoad thrFull
      | _ => after .txDone (after .txLoad thrFull)
    stimulus := fun n => match n with
      | 0 => some .txLoad
      | 1 => some .txDone
      | _ => none }

theorem witness_fair_run_valid : sendingRun.Valid := by
  intro n
  match n with
  | 0 => exact ⟨by decide, by decide, by decide, rfl⟩
  | 1 => exact ⟨by decide, by decide, by decide, rfl⟩
  | n + 2 => rfl

theorem witness_fair_run_fair : sendingRun.Fair := by
  constructor
  · intro n h
    exact absurd (h (n + 2) (by omega)) (show ¬ txLoadEnabled (after .txDone (after .txLoad thrFull)) = true by decide)
  · intro n h
    exact absurd (h (n + 2) (by omega)) (show ¬ txDoneEnabled (after .txDone (after .txLoad thrFull)) = true by decide)

theorem witness_fair_run_active : ∀ n, txActive (sendingRun.state n) = true := fun n =>
  match n with
  | 0 => rfl
  | 1 => rfl
  | _ + 2 => rfl

theorem witness_fair_run_no_reset : ∀ n, sendingRun.stimulus n ≠ some .evReset := fun n =>
  match n with
  | 0 => by simp [sendingRun]
  | 1 => by simp [sendingRun]
  | _ + 2 => by simp [sendingRun]

theorem witness_fair_run_writes :
    ∀ n d, sendingRun.stimulus n = some (.wrThr d) → (sendingRun.state n).thre = true := fun n d =>
  match n with
  | 0 => by simp [sendingRun]
  | 1 => by simp [sendingRun]
  | _ + 2 => by simp [sendingRun]

theorem witness_idle_drain : thrFull.schedule = [] ∧ thrFull.txen = true ∧ thrFull.dl ≠ 0#16 := by decide
theorem witness_idle_tx : SameButIdleTx configured { configured with thr := 0x55#8, tsr := 0xAA#8 } ∧
    exec .rdLsr configured = .next (after .rdLsr configured) ∧
    exec .rdLsr { configured with thr := 0x55#8, tsr := 0xAA#8 } =
      .next (after .rdLsr { configured with thr := 0x55#8, tsr := 0xAA#8 }) :=
  ⟨⟨_, _, rfl, by decide, by decide⟩, rfl, rfl⟩
theorem witness_divisor_stops : ({ State.reset with dl := 0x00FF#16 } : State).dl.toNat < 256 := by decide
theorem witness_divisor_high_stops : ({ State.reset with dl := 0x0100#16 } : State).dl.toNat % 256 = 0 := by decide
theorem witness_reserved_offsets : decode true (busWord true 0xA#4 0x55#8) = .wrRsv 0xA#4 0x55#8 ∧
    decode false (busWord false 0xF#4 0xFF#8) = .rdRsv 0xF#4 ∧ 0xA ≤ (0xA#4 : Offset).toNat ∧
    ¬ 0xA ≤ (0x9#4 : Offset).toNat := by decide
theorem witness_nothing_runs : State.reset.dl = 0#16 ∧
    ∀ d, Instr.wrDll d ∉ [Instr.rxFrame 0x41#8, .txLoad] ∧ Instr.wrDlm d ∉ [Instr.rxFrame 0x41#8, .txLoad] :=
  ⟨rfl, fun d => by simp⟩
theorem witness_dlab_set : ({ received with dlab := true, schedule := [busWord false 0x0#4 0#8] } : State).dlab = true ∧
    ({ received with dlab := true, schedule := [busWord true 0x0#4 1#8] } : State).schedule = busWord true 0x0#4 1#8 :: [] :=
  ⟨rfl, rfl⟩
theorem witness_out_write : exec (.wrOut 0x03#8) { State.reset with dir := 0x07#8 } =
      .next (after (.wrOut 0x03#8) { State.reset with dir := 0x07#8 }) ∧
    (0x07#8 : Byte).getLsbD 0 = true ∧ (0x03#8 : Byte).getLsbD 0 = true ∧ (0x07#8 : Byte).getLsbD 2 = true ∧
    (0x03#8 : Byte).getLsbD 2 = false ∧ (0x07#8 : Byte).getLsbD 7 = false := ⟨rfl, by decide⟩
theorem witness_line_writers : pin (after (.wrDir 0x01#8) State.reset) 0 ≠ pin State.reset 0 ∧
    (after (.wrOut 0x01#8) State.reset).out ≠ State.reset.out ∧ (after (.wrDir 0x01#8) State.reset).dir ≠ State.reset.dir := by
  decide
theorem witness_reserved_event : 4 ≤ (0b00100#5 : EventCode).toNat ∧ 4 ≤ (0b11111#5 : EventCode).toNat := by decide
theorem witness_reads_legal : ReadsLegal { after .rdLcr received with schedule := [0x0500#14] } ∧
    step { after .rdLcr received with schedule := [0x0500#14] } = .next (after .rdLsr (after .rdLcr received)) :=
  ⟨by decide, rfl⟩
theorem witness_divisor : divCalc .floor 1000000 4800 = some 13#16 ∧ 1 < (13#16 : Half).toNat ∧ (13#16 : Half).toNat < 65535 := by
  decide
theorem witness_rate : 0 < 4800 ∧ exactRate 1843200 4800 = true ∧ (actualRate 1843200 24#16).isSome = true := by
  refine ⟨by decide, by decide, rfl⟩
theorem witness_rounding_differs : roundedQuotient .floor 24 1 ≠ roundedQuotient .nearest 24 1 ∧
    roundedQuotient .floor 23 1 = roundedQuotient .nearest 23 1 := by decide
theorem witness_direct_line : mapWf mapV1Example = true ∧ (⟨2, 2, .activeHigh⟩ : MapEntry) ∈ mapV1Example := by decide
theorem witness_map : mapWf mapV2Example = true ∧ (⟨0, 0, .activeLow⟩ : MapEntry) ∈ mapV2Example ∧
    ∀ e ∈ mapV2Example, e.line ≠ 7 := by decide

/-- The configuration of the board of R212, with the reference clock of the vectors. -/
def boardParams : Config.Params := { fRef := 1000000, map := mapV1Example }

/-- A configuration R211 refuses: two bits drive line 0. -/
def badParams : Config.Params := { fRef := 1000000, map := [⟨0, 0, .activeHigh⟩, ⟨0, 1, .activeHigh⟩] }

/-- A system whose host has just taken the interrupt of a received byte. -/
def inHandler : System :=
  { block := { received with erbfi := true }, ops := [], main := .done, decoders := [handler boardParams.map .done]
    intEnable := true, started := [.initialise 4800, .onByteReceived] }

/-- The turns of one run of the handler, with a frame that arrives inside it and an interrupt that is not taken. -/
def handlerTurns : List Turn := [.host, .event 0b00001#5 0x02#8, .host, .interrupt, .host, .host]

-- L1.1 and R253: a system reset leaves a host about to boot, whatever it was doing
theorem test_system_reset : (inHandler.turn .interrupt boardParams (.systemReset defaultBootOrder)).decoders.length = 0 ∧
    (inHandler.turn .interrupt boardParams (.systemReset defaultBootOrder)).ops.length = 5 ∧
    (inHandler.turn .interrupt boardParams (.event 0b00000#5 0#8)).intEnable = true := by decide
-- R253: step 4 is skipped in the blocking variant
theorem test_boot_blocking : boot .blocking defaultBootOrder boardParams =
    [.writeLatch 0x00#8, .writeDirections 0x07#8, .initialise 4800, .enableInterrupts] := by decide
-- R5(c): a WR_OUT of another master breaks the assumption, the decoder's own does not
theorem test_decoder_owns_out : decoderOwnsOut .interrupt boardParams handlerTurns inHandler = true ∧
    decoderOwnsOut .interrupt boardParams [.other true 0x8#4 0x01#8] inHandler = false := ⟨rfl, rfl⟩
-- R5(a), (b), (d) broken
theorem test_assumptions_broken : singleHost [.other false 0x0#4 0#8] = false ∧
    handlerNotReentered .interrupt boardParams [.interrupt] inHandler = false ∧
    initialisedOnceFirst [.transmitByte 0x41#8, .initialise 4800] = false ∧
    initialisedOnceFirst [.initialise 4800, .initialise 4800] = false := ⟨rfl, rfl, rfl, rfl⟩

theorem witness_handler : mapWf boardParams.map = true ∧ inHandler.decoders = handler boardParams.map .done :: [] ∧
    inHandler.block.dr = true ∧ inHandler.block.dlab = false := ⟨by decide, rfl, rfl, rfl⟩

theorem witness_handler_assumptions : singleHost [.host, .event 0b00001#5 0x02#8, .host, .host, .host] = true ∧
    handlerNotReentered .interrupt boardParams [.host, .event 0b00001#5 0x02#8, .host, .host, .host] inHandler = true ∧
    noReset [.host, .event 0b00001#5 0x02#8, .host, .host, .host] = true := ⟨by decide, rfl, by decide⟩

theorem witness_handler_ends :
    endsDecoder .interrupt boardParams [.host, .event 0b00001#5 0x02#8, .host, .host, .host] inHandler := by
  refine ⟨rfl, fun n hn => ?_⟩
  match n, hn with
  | 0, _ => exact List.cons_ne_nil _ _
  | 1, _ => exact List.cons_ne_nil _ _
  | 2, _ => exact List.cons_ne_nil _ _
  | 3, _ => exact List.cons_ne_nil _ _
  | 4, _ => exact List.cons_ne_nil _ _

theorem witness_interrupt : inHandler.intEnable = true ∧ irq inHandler.block = true ∧ irq received = false := ⟨rfl, rfl, rfl⟩
theorem witness_idle_host : ({ inHandler with decoders := [] } : System).decoders = [] ∧
    ({ inHandler with decoders := [] } : System).ops = [] ∧ ({ inHandler with decoders := [] } : System).main = .done :=
  ⟨rfl, rfl, rfl⟩
theorem witness_boot : mapWf boardParams.map = true ∧ defaultBootOrder ∈ bootOrders ∧
    [.initialise, .receiveIrq, .latch, .directions, .hostInterrupts] ∈ bootOrders := by decide
theorem witness_setline : ({ inHandler with decoders := [], main := setline 3 true .done } : System).main = setline 3 true .done ∧
    ({ inHandler with decoders := [], main := setline 3 true .done } : System).decoders = [] := ⟨rfl, rfl⟩
theorem witness_initialise_zero : ({ inHandler with decoders := [], ops := [.initialise 0] } : System).ops = .initialise 0 :: [] ∧
    ({ inHandler with decoders := [], ops := [.initialise 1] } : System).ops = .initialise 1 :: [] ∧
    ({ inHandler with decoders := [], ops := [.initialise 0] } : System).main = .done := ⟨rfl, rfl, rfl⟩
theorem witness_refused_handler :
    ({ inHandler with decoders := [handler badParams.map .done] } : System).decoders = handler badParams.map .done :: [] := rfl
theorem witness_bus : (0x3F < 0x40) ∧ (0x40 ≤ 0x4F) ∧ (0x4F < 0x40 + 16) ∧ (16 ≠ 8) ∧ (0x48 = 0x40 + (0x8#4 : Offset).toNat) := by
  decide
theorem witness_bad_map : ¬ ((badParams.map.map (·.line)).Nodup ∧ (badParams.map.map (·.bit)).Nodup) ∧
    (boardParams.map.map (·.line)).Nodup ∧ (boardParams.map.map (·.bit)).Nodup := by decide

end Sys2Proof.Tests
end

section
/-! PROOFS, family `10_state`: the state after EV_RESET (R35, R250) and what a read of LSR returns (R24, R102). -/

namespace Sys2Proof.Machine

/-! ### The flags and derived outputs of a state -/

theorem irq_eq_false_of_dr {s : State} (h : s.dr = false) : irq s = false := by simp [irq, h]

/-- With `DL = 0` the receiver does not run, whatever RXEN is (R142). -/
theorem rxActive_eq_false_of_dl {s : State} (h : s.dl = 0#16) : rxActive s = false := by simp [rxActive, h]

/-- With `DL = 0` the transmitter does not run, whatever TXEN is (R142). -/
theorem txActive_eq_false_of_dl {s : State} (h : s.dl = 0#16) : txActive s = false := by simp [txActive, h]

/-- A line is left undriven exactly where its direction bit is 0 (R194). -/
theorem pin_eq_z_iff (s : State) (j : Fin 8) : pin s j = .z ↔ s.dir.getLsbD j = false := by
  unfold pin
  cases s.dir.getLsbD j <;> cases s.out.getLsbD j <;> simp

/-- No byte is on its way out exactly when TEMT is set (R26). -/
theorem pendingTx_eq_nil_iff (s : State) : pendingTx s = [] ↔ temt s = true := by
  unfold pendingTx temt
  cases s.thre <;> cases s.tsrBusy <;> simp

/-! ### What the registers read as after EV_RESET (R35) -/

theorem temt_hardReset (s : State) : temt s.hardReset = true := by simp [temt]

theorem lsrValue_hardReset (s : State) : lsrValue s.hardReset = 0x60#8 := by simp [lsrValue, temt]

theorem lcrValue_hardReset (s : State) : lcrValue s.hardReset = 0x03#8 := by simp [lcrValue]

theorem ierValue_hardReset (s : State) : ierValue s.hardReset = 0x00#8 := by simp [ierValue]

theorem enrValue_hardReset (s : State) : enrValue s.hardReset = 0x00#8 := by simp [enrValue]

/-- EV_RESET leaves every output line undriven (R194). -/
theorem pin_hardReset (s : State) (j : Fin 8) : pin s.hardReset j = .z := (pin_eq_z_iff _ j).mpr (by simp)

/-- Settles O11: EV_RESET answers `hardReset`, with the free values of its draw as the unspecified bytes. -/
theorem resetGivesSpecValues : Obligations.ResetGivesSpecValues := by
  intro x s
  refine ⟨decode_eventWord s.dlab _ x, Config.rbrDraw s.draws, Config.thrDraw s.draws, Config.tsrDraw s.draws,
    s.draws + 1, s.hardReset, exec_eq .evReset s, rfl, ?_⟩
  exact ⟨irq_eq_false_of_dr (State.hardReset_dr s), lsrValue_hardReset s, lcrValue_hardReset s, ierValue_hardReset s,
    enrValue_hardReset s, rxActive_eq_false_of_dl (State.hardReset_dl s), txActive_eq_false_of_dl (State.hardReset_dl s),
    pin_hardReset s, (pendingTx_eq_nil_iff _).mpr (temt_hardReset s)⟩

/-- Settles O16: the value RD_LSR returns is `lsrValue`, whose bits `getLsbD_lsrValue` gives. -/
theorem rdLsrReturnsStatusBits : Obligations.RdLsrReturnsStatusBits := by
  intro x s
  refine ⟨decode_busWord_false s.dlab _ x, lsrValue s, exec_eq .rdLsr s, ?_⟩
  simp only [getLsbD_lsrValue, temt]
  simp

end Sys2Proof.Machine
end

section
/-! PROOFS, family `20_memory`: the side effects of bus reads and writes (R54, R55). -/

namespace Sys2Proof

/-! ### Which stimuli the bus names (R71, R74) -/

/-- The stimulus is a bus read: `K = 0` and `W = 0` (R70, R71). -/
def Instr.isRead (i : Instr) : Bool := !i.isEvent && !(encode i).isWrite

/-- The stimulus is a bus write: `K = 0` and `W = 1` (R70, R71). -/
def Instr.isWrite (i : Instr) : Bool := !i.isEvent && (encode i).isWrite

theorem decodeRead_isRead (b : Bool) (a : Offset) : (decodeRead b a).isRead = true := by
  revert b a
  decide

theorem decodeWrite_isWrite (b : Bool) (a : Offset) (d : Byte) : (decodeWrite b a d).isWrite = true := by
  unfold decodeWrite
  split <;> (try split) <;> simp [Instr.isWrite, Instr.isEvent, encode]

theorem decodeRead_eq_rdRbr_iff (b : Bool) (a : Offset) : decodeRead b a = .rdRbr ↔ a = 0x0#4 ∧ b = false := by
  revert b a
  decide

/-- WR_LCR is a write of offset 0x3 in either mode (R74). -/
theorem decodeWrite_eq_wrLcr (b : Bool) (a : Offset) (d x : Byte) (h : decodeWrite b a d = .wrLcr x) : a = 0x3#4 := by
  unfold decodeWrite at h
  split at h
  case h_3 h3 => exact BitVec.eq_of_toNat_eq h3
  case h_1 | h_2 => split at h <;> cases h
  all_goals cases h

namespace Machine

/-! ### Reads (R54) -/

/-- A read other than RD_RBR only answers, and its answer does not change the value that it reads. -/
theorem after_read_answers_twice (i : Instr) (s : State) (hi : i.isRead = true) (hne : i ≠ .rdRbr) :
    ∃ r v, after i s = s.answer r v ∧ after i (s.answer r v) = (s.answer r v).answer r v := by
  cases i
  case rdRbr => exact absurd rfl hne
  case rdDll | rdDlm | rdIer | rdRsv | rdLcr | rdEnr | rdLsr | rdOut | rdDir => exact ⟨_, _, rfl, rfl⟩
  all_goals simp [Instr.isRead, Instr.isEvent, encode] at hi

/-- Settles O43: the read that RD_RBR names answers `RBR` and clears `DR`; every other read only answers. -/
theorem readsHaveNoSideEffect : Obligations.ReadsHaveNoSideEffect := by
  intro s a x
  simp only [decode_busWord_false, exec_eq]
  by_cases h : a = 0x0#4 ∧ s.dlab = false
  · rw [(decodeRead_eq_rdRbr_iff _ _).mpr h, if_pos h]
    exact ⟨.rbr, s.rbr, _, rfl, rfl, rfl⟩
  · have hne := mt (decodeRead_eq_rdRbr_iff s.dlab a).mp h
    obtain ⟨r, v, hfirst, hsecond⟩ := after_read_answers_twice _ s (decodeRead_isRead s.dlab a) hne
    rw [if_neg h]
    exact ⟨r, v, s.answer r v, congrArg _ hfirst, rfl, congrArg _ hsecond⟩

/-! ### Writes (R55) -/

@[simp] theorem State.setDl_setDl (s : State) (v w : Half) : (s.setDl v).setDl w = s.setDl w := rfl

/-- The same write twice in a row leaves what it leaves once, WR_THR included: it replaces its byte by itself. -/
theorem after_write_idem (i : Instr) (s : State) (hi : i.isWrite = true) : after i (after i s) = after i s := by
  cases i
  case wrDll | wrDlm => simp
  case wrThr | wrIer | wrRsv | wrLcr | wrEnr | wrLsr | wrOut | wrDir => rfl
  all_goals simp [Instr.isWrite, Instr.isEvent, encode] at hi

/-- A write returns nothing to the host. -/
theorem after_write_readLog (i : Instr) (s : State) (hi : i.isWrite = true) : (after i s).readLog = s.readLog := by
  cases i
  case wrThr | wrDll | wrDlm | wrIer | wrRsv | wrLcr | wrEnr | wrLsr | wrOut | wrDir => rfl
  all_goals simp [Instr.isWrite, Instr.isEvent, encode] at hi

/-- Only WR_LCR and EV_RESET write `DLAB` (R141, R250). -/
theorem after_dlab (i : Instr) (s : State) (hw : ∀ d, i ≠ .wrLcr d) (hr : i ≠ .evReset) :
    (after i s).dlab = s.dlab := by
  cases i
  case wrLcr d => exact absurd rfl (hw d)
  case evReset => exact absurd rfl hr
  case rxFrame p => rw [after_rxFrame]; split <;> rfl
  case txLoad => rw [after_txLoad]; split <;> rfl
  case txDone => rw [after_txDone]; split <;> rfl
  all_goals rfl

/-- A write decodes after itself as it did before: it keeps `DLAB`, or it is the WR_LCR of either mode. -/
theorem decodeWrite_after_self (a : Offset) (d : Byte) (s : State) :
    decodeWrite (after (decodeWrite s.dlab a d) s).dlab a d = decodeWrite s.dlab a d := by
  by_cases ha : a = 0x3#4
  · subst ha
    rfl
  · rw [after_dlab _ s (fun x hx => ha (decodeWrite_eq_wrLcr _ _ _ _ hx)) (decodeWrite_ne_reset _ _ _)]

/-- Settles O44: the second write is the same stimulus as the first, and each write is idempotent. -/
theorem writesAreIdempotent : Obligations.WritesAreIdempotent := by
  intro s a d
  have hw := decodeWrite_isWrite s.dlab a d
  simp only [deliver_write, decodeWrite_after_self]
  exact ⟨after_write_idem _ s hw, after_write_readLog _ s hw⟩

end Machine

end Sys2Proof
end

section
/-! PROOFS, family `30_encoding`: the opcode map (R74, R75), reads and their data (R72), reserved events (R77). -/

namespace Sys2Proof

/-! ### The head of a stimulus word -/

/-- Bits 13:8 of a stimulus word: all of it but `D` (R71) or `P` (R73). -/
def Word.head (w : Word) : BitVec 6 := w.extractLsb' 8 6

theorem kind_eq_head (w : Word) : w.kind = w.head.getLsbD 5 := by simp [Word.kind, Word.head]

theorem isWrite_eq_head (w : Word) : w.isWrite = w.head.getLsbD 4 := by simp [Word.isWrite, Word.head]

theorem offset_eq_head (w : Word) : w.offset = w.head.extractLsb' 0 4 := by
  ext i hi
  simp [Word.offset, Word.head, show i < 6 by omega]

theorem event_eq_head (w : Word) : w.event = w.head.extractLsb' 0 5 := by
  ext i hi
  simp [Word.event, Word.head, show i < 6 by omega]

theorem head_append_data (w : Word) : (w.head ++ w.data : BitVec 14) = w :=
  BitVec.extractLsb'_append_extractLsb' (w := 6) (len := 8)

@[simp] theorem head_append (h : BitVec 6) (d : Byte) : Word.head (h ++ d : BitVec 14) = h :=
  BitVec.extractLsb'_append_eq_left

/-- A mask that leaves out `D` and `P` sees the head alone. -/
theorem and_eq_of_data_eq_zero (w m : Word) (hm : m.data = 0#8) :
    w &&& m = ((w.head &&& m.head) ++ 0#8 : BitVec 14) := by
  calc w &&& m = ((w.head ++ w.data) &&& (m.head ++ m.data) : BitVec 14) := by rw [head_append_data, head_append_data]
    _ = ((w.head &&& m.head) ++ (w.data &&& m.data) : BitVec 14) := BitVec.and_append
    _ = ((w.head &&& m.head) ++ 0#8 : BitVec 14) := by rw [hm, BitVec.and_zero]

/-! ### The opcode map (R74, R75) -/

/-- No row of the opcode map looks at `D` or `P`. -/
theorem admits_eq_of_head_eq {r : OpcodeRow} (hr : r ∈ opcodeTable) (dlab : Bool) {w v : Word} (h : w.head = v.head) :
    r.admits dlab w = r.admits dlab v := by
  have hm : ∀ r ∈ opcodeTable, r.mask.data = 0#8 := by decide
  simp only [OpcodeRow.admits, and_eq_of_data_eq_zero _ _ (hm r hr), h]

theorem mnemonic_decodeWrite (dlab : Bool) (a : Offset) (d x : Byte) :
    (decodeWrite dlab a d).mnemonic = (decodeWrite dlab a x).mnemonic := by
  unfold decodeWrite
  split <;> cases dlab <;> rfl

theorem mnemonic_decodeEvent (e : EventCode) (p x : Byte) :
    (decodeEvent e p).mnemonic = (decodeEvent e x).mnemonic := by
  unfold decodeEvent
  split <;> rfl

/-- The mnemonic of a word is settled by its head: `D` and `P` are operands only. -/
theorem mnemonic_decode_eq_of_head_eq (dlab : Bool) {w v : Word} (h : w.head = v.head) :
    (decode dlab w).mnemonic = (decode dlab v).mnemonic := by
  simp only [decode, kind_eq_head, isWrite_eq_head, offset_eq_head, event_eq_head, h]
  split
  · exact mnemonic_decodeEvent ..
  · split
    · exact mnemonic_decodeWrite ..
    · rfl

/-- The 64 heads, each in both modes, over the words whose `D` or `P` is 0. -/
theorem opcodeTable_names_head (dlab : Bool) (h : BitVec 6) :
    ((opcodeTable.filter fun r => r.admits dlab (h ++ 0#8 : BitVec 14)).map fun r => r.mnemonic) =
      [(decode dlab (h ++ 0#8 : BitVec 14)).mnemonic] := by
  revert dlab h
  decide

/-- Settles O5: rows and decoder see only the head of a word, so the words whose `D` or `P` is 0 stand for all. -/
theorem decoderFollowsOpcodeMap : Obligations.DecoderFollowsOpcodeMap := by
  intro dlab w
  have hw : w.head = Word.head (w.head ++ 0#8 : BitVec 14) := (head_append ..).symm
  rw [List.filter_congr fun r hr => admits_eq_of_head_eq hr dlab hw, mnemonic_decode_eq_of_head_eq dlab hw]
  exact opcodeTable_names_head dlab w.head

/-! ### Reads (R72) -/

/-- Every stimulus meets the law of its word's kind bit and ignored bits. -/
theorem encodeKind_statement (i : Instr) : Laws.EncodeKind.Statement i := by
  cases i
  exacts [Laws.EncodeKind.rdRbr, Laws.EncodeKind.wrThr _, Laws.EncodeKind.rdDll, Laws.EncodeKind.wrDll _,
    Laws.EncodeKind.rdIer, Laws.EncodeKind.wrIer _, Laws.EncodeKind.rdDlm, Laws.EncodeKind.wrDlm _,
    Laws.EncodeKind.rdRsv _, Laws.EncodeKind.wrRsv _ _, Laws.EncodeKind.rdLcr, Laws.EncodeKind.wrLcr _,
    Laws.EncodeKind.rdEnr, Laws.EncodeKind.wrEnr _, Laws.EncodeKind.rdLsr, Laws.EncodeKind.wrLsr _,
    Laws.EncodeKind.rdOut, Laws.EncodeKind.wrOut _, Laws.EncodeKind.rdDir, Laws.EncodeKind.wrDir _,
    Laws.EncodeKind.evReset, Laws.EncodeKind.rxFrame _, Laws.EncodeKind.txLoad, Laws.EncodeKind.txDone,
    Laws.EncodeKind.evRsv _]

theorem decode_read (dlab : Bool) (w : Word) (hk : w.kind = false) (hw : w.isWrite = false) :
    decode dlab w = decodeRead dlab w.offset := by
  simp [decode, hk, hw]

/-- Settles O6: a read decodes by its offset alone, and the words of the reads are those of `EncodeKind`. -/
theorem readDecodingIgnoresData : Obligations.ReadDecodingIgnoresData := by
  refine ⟨fun dlab w v hk hw h => ?_, fun i hk hw => ?_⟩
  · change w.head = v.head at h
    have hkv : v.kind = false := by rwa [kind_eq_head, ← h, ← kind_eq_head]
    have hwv : v.isWrite = false := by rwa [isWrite_eq_head, ← h, ← isWrite_eq_head]
    rw [decode_read dlab w hk hw, decode_read dlab v hkv hwv, offset_eq_head w, offset_eq_head v, h]
  · obtain ⟨hkind, hdata⟩ := encodeKind_statement i
    exact hdata (hkind.symm.trans hk) hw

/-! ### Reserved events (R77) -/

theorem decodeEvent_reserved (e : EventCode) (p : Byte) (he : 4 ≤ e.toNat) : decodeEvent e p = .evRsv e := by
  unfold decodeEvent
  split
  case h_5 => rfl
  all_goals omega

/-- Settles O42: a reserved code decodes to EV_RSV in either mode, and EV_RSV answers `refuse`. -/
theorem reservedEventIsRefused : Obligations.ReservedEventIsRefused := by
  intro dlab e p s he
  exact ⟨(decode_eventWord dlab e p).trans (decodeEvent_reserved e p he), Machine.exec_eq (.evRsv e) s⟩

end Sys2Proof
end

section
/-! PROOFS, family `40_uart_receive`: RX_FRAME and RD_RBR (R100, R101), IER (R103, R104), the interrupt request (R105)
and the order of the bytes received (R106). -/

namespace Sys2Proof.Machine

open Sys2Proof.Safety

/-! ### The receiver and the interrupt request -/

theorem rxActive_iff (s : State) : rxActive s = true ↔ s.rxen = true ∧ s.dl ≠ 0#16 := by simp [rxActive]

theorem rxActive_eq_false_iff (s : State) : rxActive s = false ↔ s.rxen = false ∨ s.dl = 0#16 := by
  cases hen : s.rxen <;> simp [rxActive, hen]

theorem irq_eq_true_iff (s : State) : irq s = true ↔ s.erbfi = true ∧ s.dr = true := by simp [irq]

/-- A frame that an inactive receiver finds is lost (R100). -/
theorem after_rxFrame_inactive (p : Byte) (s : State) (h : rxActive s = false) : after (.rxFrame p) s = s := by
  simp [after_rxFrame, h]

/-- Settles O14: `after_rxFrame` in its two cases, RXEN and DL telling which. -/
theorem rxFrameReplacesOrDrops : Obligations.RxFrameReplacesOrDrops := by
  intro p s
  refine ⟨decode_eventWord s.dlab _ p, fun hen hdl => ?_, fun hoff => ?_⟩
  · have hact := (rxActive_iff s).mpr ⟨hen, hdl⟩
    refine ⟨s.receive p, ?_, rfl, by simp [irq]⟩
    rw [exec_eq, after_rxFrame_active p s hact]
  · rw [exec_eq, after_rxFrame_inactive p s ((rxActive_eq_false_iff s).mpr hoff)]

/-- Settles O15: RD_RBR answers `RBR` and clears `DR`, and leaves `RBR` for the second read. -/
theorem rdRbrReturnsByteAndClearsDr : Obligations.RdRbrReturnsByteAndClearsDr := by
  intro x s
  exact ⟨decode_busWord_false false _ x, decode_busWord_false true _ x, after .rdRbr s, exec_eq .rdRbr s, rfl,
    irq_eq_false_of_dr rfl, exec_eq .rdRbr _⟩

/-! ### IER (R103, R104) -/

theorem ierValue_eq_ite (s : State) : ierValue s = if s.erbfi then 0x01#8 else 0x00#8 := by
  unfold ierValue
  cases s.erbfi <;> rfl

/-- What RD_IER returns after WR_IER: the written byte with all bits but bit 0 cleared. -/
theorem ierValue_setErbfi (d : Byte) (s : State) : ierValue (s.setErbfi (d.getLsbD 0)) = d &&& 0x01#8 := by
  apply BitVec.eq_of_getLsbD_eq
  intro i hi
  rw [getLsbD_ierValue, BitVec.getLsbD_and]
  interval_cases i <;> simp

/-- Settles O17: WR_IER is `setErbfi` of bit 0, and RD_IER answers `ierValue`. -/
theorem ierWriteAndRead : Obligations.IerWriteAndRead := by
  intro d x s
  refine ⟨decode_busWord_true false _ d, decode_busWord_true true _ d, decode_busWord_false false _ x,
    decode_busWord_false true _ x, after (.wrIer d) s, exec_eq (.wrIer d) s, rfl, rfl, ?_, ?_⟩
  · rw [exec_eq, after_rdIer, after_wrIer, ierValue_setErbfi]
    rfl
  · rw [exec_eq, after_rdIer, ierValue_eq_ite]
    rfl

/-! ### What the other stimuli leave of the receive path -/

@[simp] theorem readsOf_clearDr (r : ReadReg) (s : State) : readsOf r s.clearDr = readsOf r s := rfl

@[simp] theorem readsOf_answer_same (r : ReadReg) (v : Byte) (s : State) :
    readsOf r (s.answer r v) = readsOf r s ++ [v] := by
  simp [readsOf]

@[simp] theorem readsOf_answer_of_ne {q r : ReadReg} (h : q ≠ r) (v : Byte) (s : State) :
    readsOf r (s.answer q v) = readsOf r s := by
  simp [readsOf, h]

/-- A stimulus other than RX_FRAME, RD_RBR and EV_RESET leaves `RBR`, `DR` and the bytes read so far (R22, R23). -/
theorem after_keeps_receive (i : Instr) (s : State) (hframe : ∀ p, i ≠ .rxFrame p) (hread : i ≠ .rdRbr)
    (hreset : i ≠ .evReset) :
    (after i s).rbr = s.rbr ∧ (after i s).dr = s.dr ∧ readsOf .rbr (after i s) = readsOf .rbr s := by
  cases i
  case rxFrame p => exact absurd rfl (hframe p)
  case rdRbr => exact absurd rfl hread
  case evReset => exact absurd rfl hreset
  case txLoad => rw [after_txLoad]; split <;> exact ⟨rfl, rfl, rfl⟩
  case txDone => rw [after_txDone]; split <;> exact ⟨rfl, rfl, rfl⟩
  case rdDll | rdDlm | rdIer | rdRsv | rdLcr | rdEnr | rdLsr | rdOut | rdDir =>
    exact ⟨rfl, rfl, readsOf_answer_of_ne (by decide) _ s⟩
  all_goals exact ⟨rfl, rfl, rfl⟩

/-! ### The interrupt request stays until it is served (R105) -/

/-- `DR` is latched: of the stimuli, RD_RBR and EV_RESET alone clear it. -/
theorem after_dr_of_dr (i : Instr) (s : State) (hread : i ≠ .rdRbr) (hreset : i ≠ .evReset) (hdr : s.dr = true) :
    (after i s).dr = true := by
  by_cases hframe : ∃ p, i = .rxFrame p
  · obtain ⟨p, rfl⟩ := hframe
    rw [after_rxFrame]
    split
    · exact State.receive_dr s p
    · exact hdr
  · obtain ⟨-, hkept, -⟩ := after_keeps_receive i s (not_exists.mp hframe) hread hreset
    rw [hkept, hdr]

/-- Only WR_IER and EV_RESET write `ERBFI` (R27). -/
theorem after_erbfi (i : Instr) (s : State) (hw : ∀ d, i ≠ .wrIer d) (hreset : i ≠ .evReset) :
    (after i s).erbfi = s.erbfi := by
  cases i
  case wrIer d => exact absurd rfl (hw d)
  case evReset => exact absurd rfl hreset
  case rxFrame p => rw [after_rxFrame]; split <;> rfl
  case txLoad => rw [after_txLoad]; split <;> rfl
  case txDone => rw [after_txDone]; split <;> rfl
  all_goals rfl

theorem eq_rdRbr_or_evReset_of_dr_falls (i : Instr) (s : State) (hdr : s.dr = true) (hfall : (after i s).dr = false) :
    i = .rdRbr ∨ i = .evReset := by
  by_contra hne
  obtain ⟨hread, hreset⟩ := not_or.mp hne
  rw [after_dr_of_dr i s hread hreset hdr] at hfall
  cases hfall

/-- With `DR` still set, `IRQ` falls only by a write of `ERBFI`. -/
theorem eq_wrIer_of_irq_falls (i : Instr) (s : State) (hirq : irq s = true) (hfall : irq (after i s) = false)
    (hdr : (after i s).dr = true) (hreset : i ≠ .evReset) : ∃ d : Byte, i = .wrIer d ∧ d.getLsbD 0 = false := by
  have herbfi : (after i s).erbfi = false := by simpa [irq, hdr] using hfall
  by_cases hw : ∃ d, i = .wrIer d
  · obtain ⟨d, rfl⟩ := hw
    exact ⟨d, rfl, herbfi⟩
  · rw [after_erbfi i s (not_exists.mp hw) hreset, ((irq_eq_true_iff s).mp hirq).1] at herbfi
    cases herbfi

/-- Settles O19: a fall of `IRQ` is a fall of `DR` or a write of `ERBFI`. -/
theorem irqStaysUntilServed : Obligations.IrqStaysUntilServed := by
  refine ⟨irq_eq_true_iff, fun i s t ht => ?_⟩
  obtain rfl := (exec_next_iff i s t).mp ht
  refine ⟨eq_rdRbr_or_evReset_of_dr_falls i s, fun hirq hfall => ?_⟩
  cases hdr : (after i s).dr with
  | false =>
    obtain ⟨-, hset⟩ := (irq_eq_true_iff s).mp hirq
    exact (eq_rdRbr_or_evReset_of_dr_falls i s hset hdr).imp_right .inl
  | true =>
    by_cases hreset : i = .evReset
    · exact .inr (.inl hreset)
    · exact .inr (.inr (eq_wrIer_of_irq_falls i s hirq hfall hdr hreset))

/-! ### The order of the bytes received (R106) -/

/-- What the RD_RBR stimuli of a list return where every frame of it is taken, with the given byte in `RBR` before it:
each returns the payload of the last frame before it. `readsOf_rbr_afterAll` ties it to the model. -/
def bytesReturned : Byte → List Instr → List Byte
  | _, [] => []
  | _, .rxFrame p :: is => bytesReturned p is
  | r, .rdRbr :: is => r :: bytesReturned r is
  | r, _ :: is => bytesReturned r is

/-- Frames that alternate with reads are returned in order, whatever `RBR` held before. -/
theorem bytesReturned_alternating (r : Byte) (ps : List Byte) :
    bytesReturned r (ps.flatMap fun p => [.rxFrame p, .rdRbr]) = ps := by
  induction ps generalizing r with
  | nil => rfl
  | cons p ps ih => exact congrArg (p :: ·) (ih p)

@[simp] theorem afterAll_cons (i : Instr) (is : List Instr) (s : State) :
    afterAll (i :: is) s = afterAll is (after i s) := rfl

theorem holdsThroughout_cons (P : State → Bool) (i : Instr) (is : List Instr) (s : State) :
    holdsThroughout P (i :: is) s = true ↔ P s = true ∧ holdsThroughout P is (after i s) = true := by
  simp [holdsThroughout]

/-- EV_RESET stops the receiver, so where it is active throughout nothing follows EV_RESET. -/
theorem eq_nil_of_rxActive_after_reset (is : List Instr) (s : State)
    (h : holdsThroughout rxActive is s.hardReset = true) : is = [] := by
  cases is with
  | nil => rfl
  | cons i is =>
    obtain ⟨hact, -⟩ := (holdsThroughout_cons _ _ _ _).mp h
    rw [rxActive_eq_false_of_dl (State.hardReset_dl s)] at hact
    cases hact

/-- With the receiver active throughout, the reads of a list return what its RX_FRAME and RD_RBR stimuli alone say. -/
theorem readsOf_rbr_afterAll (is : List Instr) (s : State) (h : holdsThroughout rxActive is s = true) :
    readsOf .rbr (afterAll is s) = readsOf .rbr s ++ bytesReturned s.rbr (receiveEvents is) := by
  induction is generalizing s with
  | nil => exact (List.append_nil _).symm
  | cons i is ih =>
    obtain ⟨hact, hrest⟩ := (holdsThroughout_cons _ _ _ _).mp h
    have hkept := after_keeps_receive i s
    rw [afterAll_cons, ih _ hrest]
    cases i
    case rxFrame p => rw [after_rxFrame_active p s hact]; rfl
    case rdRbr => simp [receiveEvents, bytesReturned]
    case evReset =>
      obtain rfl := eq_nil_of_rxActive_after_reset is s hrest
      rfl
    all_goals
      obtain ⟨hrbr, -, hreads⟩ := hkept (by simp) (by simp) (by simp)
      rw [hrbr, hreads]
      rfl

/-- Settles O21: the reads return what the receive events say, and those alternate. -/
theorem receivedBytesReadInOrder : Obligations.ReceivedBytesReadInOrder := by
  intro is ps s hact halt
  rw [readsOf_rbr_afterAll is s hact, halt, bytesReturned_alternating]

end Sys2Proof.Machine
end

section
/-! PROOFS, family `41_uart_transmit`: WR_THR, TX_LOAD and TX_DONE (R120 to R122), the order of the bytes sent and,
in a fair run, that each of them is sent (R123, R124). -/

namespace Sys2Proof.Machine

open Sys2Proof.Safety

/-! ### The three stimuli of the transmitter (R120, R121, R122) -/

theorem txActive_iff (s : State) : txActive s = true ↔ s.txen = true ∧ s.dl ≠ 0#16 := by simp [txActive]

theorem txLoadEnabled_iff (s : State) :
    txLoadEnabled s = true ↔ s.thre = false ∧ s.tsrBusy = false ∧ txActive s = true := by
  simp [txLoadEnabled, and_assoc]

theorem txDoneEnabled_iff (s : State) : txDoneEnabled s = true ↔ s.tsrBusy = true ∧ txActive s = true := by
  simp [txDoneEnabled]

/-- Settles O22: WR_THR is `fillThr`, and a second `fillThr` overwrites the first. -/
theorem wrThrFillsHoldingRegister : Obligations.WrThrFillsHoldingRegister := by
  intro d e s
  exact ⟨decode_busWord_true false _ d, decode_busWord_true true _ d, s.fillThr d, exec_eq (.wrThr d) s, rfl,
    by simp [temt], exec_eq (.wrThr e) _⟩

/-- Settles O23: the enabling condition is `txLoadEnabled`, and where it holds TX_LOAD is `loadTsr`. -/
theorem txLoadMovesByte : Obligations.TxLoadMovesByte := by
  intro x s
  have henabled : enabled .txLoad s = true ↔ s.thre = false ∧ s.tsrBusy = false ∧ s.txen = true ∧ s.dl ≠ 0#16 := by
    rw [← txActive_iff]
    exact txLoadEnabled_iff s
  refine ⟨decode_eventWord s.dlab _ x, henabled, fun hthre hbusy hen hdl => ?_⟩
  refine ⟨s.loadTsr, ?_, rfl, by simp [temt]⟩
  rw [exec_eq, after_txLoad_enabled s (henabled.mpr ⟨hthre, hbusy, hen, hdl⟩)]

/-- Settles O24: the enabling condition is `txDoneEnabled`, and where it holds TX_DONE is `emitTsr`. -/
theorem txDoneEmitsByte : Obligations.TxDoneEmitsByte := by
  intro x s
  have henabled : enabled .txDone s = true ↔ s.tsrBusy = true ∧ s.txen = true ∧ s.dl ≠ 0#16 := by
    rw [← txActive_iff]
    exact txDoneEnabled_iff s
  refine ⟨decode_eventWord s.dlab _ x, henabled, fun hbusy hen hdl => ?_⟩
  refine ⟨s.emitTsr, ?_, rfl, by simp [temt]⟩
  rw [exec_eq, after_txDone_enabled s (henabled.mpr ⟨hbusy, hen, hdl⟩)]

/-! ### What a stimulus does to the transmit path -/

/-- The second state has the transmit path of the first: its two holding places, their flags and `TXD_LOG`. -/
structure SameTransmitter (s t : State) : Prop where
  thr : t.thr = s.thr
  thre : t.thre = s.thre
  tsr : t.tsr = s.tsr
  tsrBusy : t.tsrBusy = s.tsrBusy
  txdLog : t.txdLog = s.txdLog

/-- Everything a stimulus other than EV_RESET can do to the transmit path: a byte comes in, a byte moves on, a byte
goes out, or nothing. -/
theorem after_transmit_cases (i : Instr) (s : State) (hreset : i ≠ .evReset) :
    (∃ d, i = .wrThr d ∧ after i s = s.fillThr d) ∨
    (i = .txLoad ∧ txLoadEnabled s = true ∧ after i s = s.loadTsr) ∨
    (i = .txDone ∧ txDoneEnabled s = true ∧ after i s = s.emitTsr) ∨
    ((∀ d, i ≠ .wrThr d) ∧ SameTransmitter s (after i s)) := by
  have hsame : SameTransmitter s s := ⟨rfl, rfl, rfl, rfl, rfl⟩
  cases i
  case evReset => exact absurd rfl hreset
  case wrThr d => exact .inl ⟨d, rfl, rfl⟩
  case txLoad =>
    rw [after_txLoad]
    split
    case isTrue hen => exact .inr (.inl ⟨rfl, hen, rfl⟩)
    case isFalse => exact .inr (.inr (.inr ⟨by simp, hsame⟩))
  case txDone =>
    rw [after_txDone]
    split
    case isTrue hen => exact .inr (.inr (.inl ⟨rfl, hen, rfl⟩))
    case isFalse => exact .inr (.inr (.inr ⟨by simp, hsame⟩))
  case rxFrame p =>
    refine .inr (.inr (.inr ⟨by simp, ?_⟩))
    rw [after_rxFrame]
    split
    · exact ⟨rfl, rfl, rfl, rfl, rfl⟩
    · exact hsame
  all_goals exact .inr (.inr (.inr ⟨by simp, ⟨rfl, rfl, rfl, rfl, rfl⟩⟩))

/-! ### The order of the bytes sent (R124) -/

/-- All bytes taken for sending, oldest first: those sent, then those in the transmitter. -/
def txStream (s : State) : List Byte := s.txdLog ++ pendingTx s

theorem txStream_eq_txdLog (s : State) (h : pendingTx s = []) : txStream s = s.txdLog := by
  rw [txStream, h, List.append_nil]

theorem txStream_fillThr (d : Byte) (s : State) (h : s.thre = true) : txStream (s.fillThr d) = txStream s ++ [d] := by
  simp [txStream, pendingTx, h]

theorem txStream_loadTsr (s : State) (hthre : s.thre = false) (hbusy : s.tsrBusy = false) :
    txStream s.loadTsr = txStream s := by
  simp [txStream, pendingTx, hthre, hbusy]

theorem txStream_emitTsr (s : State) (h : s.tsrBusy = true) : txStream s.emitTsr = txStream s := by
  simp [txStream, pendingTx, h]

theorem SameTransmitter.txStream_eq {s t : State} (h : SameTransmitter s t) : txStream t = txStream s := by
  simp [txStream, pendingTx, h.thr, h.thre, h.tsr, h.tsrBusy, h.txdLog]

theorem bytesWritten_cons (i : Instr) (is : List Instr) : bytesWritten (i :: is) = bytesWritten [i] ++ bytesWritten is :=
  List.filterMap_append (l := [i]) (l' := is)

theorem bytesWritten_singleton_of_ne_wrThr (i : Instr) (h : ∀ d, i ≠ .wrThr d) : bytesWritten [i] = [] := by
  cases i
  case wrThr d => exact absurd rfl (h d)
  all_goals rfl

/-- A stimulus adds to the bytes taken for sending what it writes, and loses, doubles or reorders none. -/
theorem txStream_after (i : Instr) (s : State) (hreset : i ≠ .evReset) (hwrite : ∀ d, i = .wrThr d → s.thre = true) :
    txStream (after i s) = txStream s ++ bytesWritten [i] := by
  obtain ⟨d, rfl, hfill⟩ | ⟨rfl, hen, hload⟩ | ⟨rfl, hen, hdone⟩ | ⟨hne, hsame⟩ := after_transmit_cases i s hreset
  · rw [hfill, txStream_fillThr d s (hwrite d rfl)]
    rfl
  · obtain ⟨hthre, hbusy, -⟩ := (txLoadEnabled_iff s).mp hen
    rw [hload, txStream_loadTsr s hthre hbusy]
    exact (List.append_nil _).symm
  · rw [hdone, txStream_emitTsr s ((txDoneEnabled_iff s).mp hen).1]
    exact (List.append_nil _).symm
  · rw [hsame.txStream_eq, bytesWritten_singleton_of_ne_wrThr i hne, List.append_nil]

theorem writesThrOnlyWhenEmpty_cons (i : Instr) (is : List Instr) (s : State) :
    writesThrOnlyWhenEmpty (i :: is) s = true ↔
      (∀ d, i = .wrThr d → s.thre = true) ∧ writesThrOnlyWhenEmpty is (after i s) = true := by
  cases i <;> simp [writesThrOnlyWhenEmpty]

/-- Settles O27, by induction on the list of stimuli: each adds what it writes to the bytes taken for sending. -/
theorem transmittedBytesKeepOrder : Obligations.TransmittedBytesKeepOrder := by
  intro is
  induction is with
  | nil => exact fun s _ _ => (List.append_nil _).symm
  | cons i is ih =>
    intro s hwrites hreset
    obtain ⟨hwrite, hwrites⟩ := (writesThrOnlyWhenEmpty_cons i is s).mp hwrites
    obtain ⟨hi, his⟩ := not_or.mp (mt List.mem_cons.mpr hreset)
    calc txStream (afterAll is (after i s))
        = txStream (after i s) ++ bytesWritten is := ih (after i s) hwrites his
      _ = txStream s ++ bytesWritten (i :: is) := by
        rw [txStream_after i s (Ne.symm hi) hwrite, bytesWritten_cons i is, List.append_assoc]

/-! ### Endless runs, and what fairness makes happen in them (R123) -/

section EndlessRuns

variable {r : EndlessRun} (hvalid : r.Valid)
include hvalid

theorem state_succ_of_stimulus {n : Nat} {i : Instr} (hi : r.stimulus n = some i) :
    enabled i (r.state n) = true ∧ r.state (n + 1) = after i (r.state n) := by
  have hstep := hvalid n
  rw [hi] at hstep
  obtain ⟨-, -, hen, hexec⟩ := hstep
  exact ⟨hen, (exec_next_iff _ _ _).mp hexec⟩

/-- What relates every state to itself and to the one after each stimulus of the run relates the states of two
successive moments. -/
theorem rel_state_succ {R : State → State → Prop} (n : Nat) (hrefl : R (r.state n) (r.state n))
    (hafter : ∀ i, r.stimulus n = some i → R (r.state n) (after i (r.state n))) : R (r.state n) (r.state (n + 1)) := by
  cases hi : r.stimulus n with
  | none =>
    have hstep := hvalid n
    rw [hi] at hstep
    rwa [hstep]
  | some i =>
    rw [(state_succ_of_stimulus hvalid hi).2]
    exact hafter i hi

variable (hnoReset : ∀ n, r.stimulus n ≠ some .evReset)
include hnoReset

/-- The use of weak fairness: a stimulus that must come while a condition lasts comes, if the other stimuli keep the
condition. -/
theorem exists_stimulus_of_kept {P : State → Prop} {e : Instr} {n : Nat} (hP : P (r.state n))
    (hkept : ∀ i s, i ≠ .evReset → i ≠ e → P s → P (after i s))
    (hfair : (∀ m, n ≤ m → P (r.state m)) → ∃ m, n ≤ m ∧ r.stimulus m = some e) :
    ∃ m, n ≤ m ∧ r.stimulus m = some e := by
  by_contra hnever
  refine hnever (hfair fun m hm => ?_)
  induction m, hm using Nat.le_induction with
  | base => exact hP
  | succ m hm ih =>
    refine rel_state_succ hvalid (R := fun _ t => P t) m ih fun i hi => ?_
    refine hkept i _ ?_ ?_ ih
    · rintro rfl
      exact hnoReset m hi
    · rintro rfl
      exact hnever ⟨m, hm, hi⟩

/-- `TXD_LOG` only grows. -/
theorem txdLog_prefix {n m : Nat} (hnm : n ≤ m) : (r.state n).txdLog <+: (r.state m).txdLog := by
  refine Nat.rel_of_forall_rel_succ_of_le (· <+: ·) (f := fun k => (r.state k).txdLog) (fun k => ?_) hnm
  refine rel_state_succ hvalid (R := fun s t => s.txdLog <+: t.txdLog) k List.prefix_rfl fun i hi => ?_
  obtain ⟨d, rfl, hfill⟩ | ⟨rfl, -, hload⟩ | ⟨rfl, -, hdone⟩ | ⟨-, hsame⟩ :=
    after_transmit_cases i (r.state k) (fun hreset => hnoReset k (hreset ▸ hi))
  · rw [hfill, State.fillThr_txdLog]
  · rw [hload, State.loadTsr_txdLog]
  · rw [hdone, State.emitTsr_txdLog]
    exact List.prefix_append _ _
  · rw [hsame.txdLog]

/-- The bytes taken for sending stay at the front of all those taken later. -/
theorem txStream_prefix (hwrites : ∀ n d, r.stimulus n = some (.wrThr d) → (r.state n).thre = true) {n m : Nat}
    (hnm : n ≤ m) : txStream (r.state n) <+: txStream (r.state m) := by
  refine Nat.rel_of_forall_rel_succ_of_le (· <+: ·) (f := fun k => txStream (r.state k)) (fun k => ?_) hnm
  refine rel_state_succ hvalid (R := fun s t => txStream s <+: txStream t) k List.prefix_rfl fun i hi => ?_
  rw [txStream_after i _ (fun hreset => hnoReset k (hreset ▸ hi)) (fun d hd => hwrites k d (hd ▸ hi))]
  exact List.prefix_append _ _

end EndlessRuns

/-! ### Every byte is sent in a fair run (R124) -/

/-- A byte in `TSR` stays there until TX_DONE. -/
theorem tsrBusy_after (i : Instr) (s : State) (hreset : i ≠ .evReset) (hdone : i ≠ .txDone) (hbusy : s.tsrBusy = true) :
    (after i s).tsrBusy = true := by
  obtain ⟨d, -, hfill⟩ | ⟨-, -, hload⟩ | ⟨rfl, -, -⟩ | ⟨-, hsame⟩ := after_transmit_cases i s hreset
  · rwa [hfill]
  · rw [hload, State.loadTsr_tsrBusy]
  · exact absurd rfl hdone
  · rwa [hsame.tsrBusy]

/-- `THR` stays full, and `TSR` free, until TX_LOAD. -/
theorem thrWaits_after (i : Instr) (s : State) (hreset : i ≠ .evReset) (hload : i ≠ .txLoad)
    (hwaits : s.thre = false ∧ s.tsrBusy = false) : (after i s).thre = false ∧ (after i s).tsrBusy = false := by
  obtain ⟨d, -, hfill⟩ | ⟨rfl, -, -⟩ | ⟨-, -, hdone⟩ | ⟨-, hsame⟩ := after_transmit_cases i s hreset
  · rw [hfill]
    exact ⟨State.fillThr_thre s d, hwaits.2⟩
  · exact absurd rfl hload
  · rw [hdone]
    exact ⟨hwaits.1, State.emitTsr_tsrBusy s⟩
  · rwa [hsame.thre, hsame.tsrBusy]

section FairRuns

variable {r : EndlessRun} (hvalid : r.Valid) (hfair : r.Fair) (hactive : ∀ n, txActive (r.state n) = true)
  (hnoReset : ∀ n, r.stimulus n ≠ some .evReset)
include hvalid hfair hactive hnoReset

/-- A byte in `TSR` is sent: TX_DONE comes, and `TXD_LOG` is then longer. -/
theorem exists_longer_txdLog_of_tsrBusy {n : Nat} (hbusy : (r.state n).tsrBusy = true) :
    ∃ m, n ≤ m ∧ (r.state n).txdLog.length < (r.state m).txdLog.length := by
  obtain ⟨m, hm, hdone⟩ := exists_stimulus_of_kept hvalid hnoReset hbusy tsrBusy_after
    fun hstays => hfair.2 n fun k hk => (txDoneEnabled_iff _).mpr ⟨hstays k hk, hactive k⟩
  obtain ⟨hen, hnext⟩ := state_succ_of_stimulus hvalid hdone
  have hgrown := (txdLog_prefix hvalid hnoReset hm).length_le
  refine ⟨m + 1, by omega, ?_⟩
  rw [hnext, after_txDone_enabled _ hen, State.emitTsr_txdLog, List.length_append, List.length_singleton]
  omega

/-- A byte in `THR` with `TSR` free moves on to `TSR`. -/
theorem exists_tsrBusy_of_thrWaits {n : Nat} (hwaits : (r.state n).thre = false ∧ (r.state n).tsrBusy = false) :
    ∃ m, n ≤ m ∧ (r.state m).tsrBusy = true := by
  obtain ⟨m, hm, hload⟩ := exists_stimulus_of_kept hvalid hnoReset
    (P := fun s => s.thre = false ∧ s.tsrBusy = false) hwaits thrWaits_after
    fun hstays => hfair.1 n fun k hk => (txLoadEnabled_iff _).mpr ⟨(hstays k hk).1, (hstays k hk).2, hactive k⟩
  obtain ⟨hen, hnext⟩ := state_succ_of_stimulus hvalid hload
  refine ⟨m + 1, by omega, ?_⟩
  rw [hnext, after_txLoad_enabled _ hen, State.loadTsr_tsrBusy]

/-- While a byte is in the transmitter, a byte is still to be sent. -/
theorem exists_longer_txdLog {n : Nat} (hpending : pendingTx (r.state n) ≠ []) :
    ∃ m, n ≤ m ∧ (r.state n).txdLog.length < (r.state m).txdLog.length := by
  cases hbusy : (r.state n).tsrBusy with
  | true => exact exists_longer_txdLog_of_tsrBusy hvalid hfair hactive hnoReset hbusy
  | false =>
    have hthre : (r.state n).thre = false := by simpa [pendingTx_eq_nil_iff, temt, hbusy] using hpending
    obtain ⟨m, hm, hloaded⟩ := exists_tsrBusy_of_thrWaits hvalid hfair hactive hnoReset ⟨hthre, hbusy⟩
    obtain ⟨k, hk, hlonger⟩ := exists_longer_txdLog_of_tsrBusy hvalid hfair hactive hnoReset hloaded
    have hgrown := (txdLog_prefix hvalid hnoReset hm).length_le
    exact ⟨k, by omega, by omega⟩

/-- `TXD_LOG` reaches every length up to that of the bytes taken for sending, one byte after the other. -/
theorem exists_txdLog_length_ge (hwrites : ∀ n d, r.stimulus n = some (.wrThr d) → (r.state n).thre = true) (n l : Nat)
    (hl : l ≤ (txStream (r.state n)).length) : ∃ m, n ≤ m ∧ l ≤ (r.state m).txdLog.length := by
  induction l with
  | zero => exact ⟨n, le_rfl, Nat.zero_le _⟩
  | succ l ih =>
    obtain ⟨m, hm, hsent⟩ := ih (by omega)
    by_cases hpending : pendingTx (r.state m) = []
    · have hkept := (txStream_prefix hvalid hnoReset hwrites hm).length_le
      rw [txStream_eq_txdLog _ hpending] at hkept
      exact ⟨m, hm, by omega⟩
    · obtain ⟨k, hk, hlonger⟩ := exists_longer_txdLog hvalid hfair hactive hnoReset hpending
      exact ⟨k, by omega, by omega⟩

end FairRuns

/-- Settles O28: `TXD_LOG` grows as long as the bytes taken for sending at that moment, and these stay at the front of
all bytes taken, as `TXD_LOG` does. -/
theorem fairRunSendsEveryByte : Obligations.FairRunSendsEveryByte := by
  intro r hvalid hfair hactive hnoReset hwrites n
  obtain ⟨m, hm, hlength⟩ := exists_txdLog_length_ge hvalid hfair hactive hnoReset hwrites n _ le_rfl
  exact ⟨m, hm, List.prefix_of_prefix_length_le (txStream_prefix hvalid hnoReset hwrites hm)
    (List.prefix_append _ _) hlength⟩

end Sys2Proof.Machine
end

section
/-! PROOFS, family `42_uart_config`: LCR (R140, R141), ENR (R143, R144), the divisor bytes (R145 to R148), and the
locations with no effect (R149 to R151). -/

namespace Sys2Proof.Machine

/-! ### The divisor bytes (R145 to R148) -/

/-- A divisor of 0 stops both sides, whatever the enables are (R142). -/
theorem inactive_setDl_of_toNat_eq_zero {v : Half} (hv : v.toNat = 0) (s : State) :
    rxActive (s.setDl v) = false ∧ txActive (s.setDl v) = false :=
  have hdl : (s.setDl v).dl = 0#16 := BitVec.eq_of_toNat_eq hv
  ⟨rxActive_eq_false_of_dl hdl, txActive_eq_false_of_dl hdl⟩

theorem toNat_joinBytes_highByte (v : Half) (d : Byte) :
    (joinBytes (highByte v) d).toNat = 256 * (v.toNat / 256) + d.toNat := by
  rw [toNat_joinBytes, toNat_highByte]

theorem toNat_joinBytes_lowByte (v : Half) (d : Byte) :
    (joinBytes d (lowByte v)).toNat = 256 * d.toNat + v.toNat % 256 := by
  rw [toNat_joinBytes, toNat_lowByte]

/-- Settles O34: both writes are `setDl` of the new byte joined with the byte kept, and their values say where it is 0. -/
theorem divisorBytesWritten : Obligations.DivisorBytesWritten := by
  intro d s
  have hlow := toNat_joinBytes_highByte s.dl d
  have hhigh := toNat_joinBytes_lowByte s.dl d
  refine ⟨decode_busWord_true true _ d, decode_busWord_true true _ d, _, _, exec_eq (.wrDll d) s, hlow,
    exec_eq (.wrDlm d) s, hhigh, fun hd hsmall => ?_, fun hd hmultiple => ?_⟩
  · exact inactive_setDl_of_toNat_eq_zero (by rw [hlow, hd, BitVec.toNat_zero]; omega) s
  · exact inactive_setDl_of_toNat_eq_zero (by rw [hhigh, hd, BitVec.toNat_zero]; omega) s

/-- Settles O33: the reads answer the two bytes of `DL`. -/
theorem divisorBytesRead : Obligations.DivisorBytesRead := by
  intro x s
  exact ⟨decode_busWord_false true _ x, decode_busWord_false true _ x, lowByte s.dl, highByte s.dl,
    exec_eq .rdDll s, toNat_lowByte s.dl, exec_eq .rdDlm s, toNat_highByte s.dl⟩

/-! ### LCR (R140, R141) -/

/-- What RD_LCR returns after WR_LCR: bits 2 and 7 as written, the others hardwired. -/
theorem lcrValue_setLcr (d : Byte) (s : State) :
    lcrValue (s.setLcr (d.getLsbD 2) (d.getLsbD 7)) = (d &&& 0x84#8) ||| 0x03#8 := by
  apply BitVec.eq_of_getLsbD_eq
  intro i hi
  rw [getLsbD_lcrValue, BitVec.getLsbD_or, BitVec.getLsbD_and]
  interval_cases i <;> simp

theorem toNat_lcrValue (s : State) :
    (lcrValue s).toNat = 3 + (if s.stb then 4 else 0) + (if s.dlab then 128 else 0) := by
  unfold lcrValue
  cases s.stb <;> cases s.dlab <;> rfl

/-- Settles O31: WR_LCR is `setLcr` of bits 2 and 7, and RD_LCR answers `lcrValue`. -/
theorem lcrWriteAndRead : Obligations.LcrWriteAndRead := by
  intro d x s
  refine ⟨decode_busWord_true s.dlab _ d, decode_busWord_false s.dlab _ x, after (.wrLcr d) s, lcrValue s,
    exec_eq (.wrLcr d) s, rfl, ?_, exec_eq .rdLcr s, toNat_lcrValue s⟩
  rw [exec_eq, after_rdLcr, after_wrLcr, lcrValue_setLcr]
  rfl

/-! ### ENR (R143, R144) -/

/-- What RD_ENR returns after WR_ENR: the written byte with all bits but bits 1:0 cleared. -/
theorem enrValue_setEnr (d : Byte) (s : State) :
    enrValue (s.setEnr (d.getLsbD 0) (d.getLsbD 1)) = d &&& 0x03#8 := by
  apply BitVec.eq_of_getLsbD_eq
  intro i hi
  rw [getLsbD_enrValue, BitVec.getLsbD_and]
  interval_cases i <;> simp

theorem toNat_enrValue (s : State) :
    (enrValue s).toNat = (if s.rxen then 1 else 0) + (if s.txen then 2 else 0) := by
  unfold enrValue
  cases s.rxen <;> cases s.txen <;> rfl

/-- Settles O32: WR_ENR is `setEnr` of bits 0 and 1, and RD_ENR answers `enrValue`. -/
theorem enrWriteAndRead : Obligations.EnrWriteAndRead := by
  intro d x s
  refine ⟨decode_busWord_true s.dlab _ d, decode_busWord_false s.dlab _ x, after (.wrEnr d) s, enrValue s,
    exec_eq (.wrEnr d) s, rfl, ?_, exec_eq .rdEnr s, toNat_enrValue s⟩
  rw [exec_eq, after_rdEnr, after_wrEnr, enrValue_setEnr]
  rfl

/-! ### Locations with no effect (R149 to R151) -/

/-- The reserved offsets as numbers (R76). -/
theorem isReservedOffset_iff (a : Offset) :
    isReservedOffset a = true ↔ a = 0x2#4 ∨ a = 0x6#4 ∨ a = 0x7#4 ∨ 0xA ≤ a.toNat := by
  simp [isReservedOffset, BitVec.le_def, or_assoc]

theorem decodeRead_reserved (dlab : Bool) (a : Offset) (ha : isReservedOffset a = true) :
    decodeRead dlab a = .rdRsv a := by
  revert dlab a
  decide

theorem decodeWrite_reserved (dlab : Bool) (a : Offset) (d : Byte) (ha : isReservedOffset a = true) :
    decodeWrite dlab a d = .wrRsv a d := by
  rw [isReservedOffset_iff] at ha
  unfold decodeWrite
  split
  case h_8 => rfl
  all_goals bv_omega

/-- Settles O35: the offsets named are the reserved ones, and there a write leaves the state and a read answers 0x00. -/
theorem reservedLocationsHaveNoEffect : Obligations.ReservedLocationsHaveNoEffect := by
  refine ⟨fun d s => ⟨decode_busWord_true s.dlab _ d, exec_eq (.wrLsr d) s⟩, fun a d x s => ⟨fun ha => ?_, ?_, ?_⟩⟩
  · have hreserved := (isReservedOffset_iff a).mpr ha
    exact ⟨(decode_busWord_true s.dlab a d).trans (decodeWrite_reserved s.dlab a d hreserved),
      (decode_busWord_false s.dlab a x).trans (decodeRead_reserved s.dlab a hreserved)⟩
  · exact exec_eq (.wrRsv a d) s
  · exact exec_eq (.rdRsv a) s

end Sys2Proof.Machine
end

section
/-! PROOFS, family `43_divisor_calc`: the divisor of a rate (R170, R172), its rounding (R171), the rate a divisor gives
(R174) and the error of that rate (R175). -/

namespace Sys2Proof.Machine

/-! ### The actual rate (R174) -/

theorem actualRate_eq_none_iff (f : Nat) (dl : Half) : actualRate f dl = none ↔ dl = 0#16 := by
  simp [actualRate]

/-- The rate of a latch is characterised by its product with `16 * DL`. -/
theorem actualRate_eq_some_iff (f : Nat) (dl : Half) (q : Rat) :
    actualRate f dl = some q ↔ dl ≠ 0#16 ∧ q * (16 * (dl.toNat : Rat)) = (f : Rat) := by
  unfold actualRate
  split
  case isTrue hzero => simp [hzero]
  case isFalse hne =>
    have hdl : (16 * (dl.toNat : Rat)) ≠ 0 := by simpa [← BitVec.toNat_inj] using hne
    rw [Option.some_inj, and_iff_right hne, div_eq_iff hdl, eq_comm]

/-- A latch runs at the whole rate `r` exactly when `16 * r * DL` is the clock. -/
theorem actualRate_eq_some_natCast_iff (f r : Nat) (dl : Half) :
    actualRate f dl = some (r : Rat) ↔ dl ≠ 0#16 ∧ 16 * r * dl.toNat = f := by
  rw [actualRate_eq_some_iff, ← Nat.cast_inj (R := Rat)]
  push_cast
  rw [mul_left_comm, mul_assoc]

/-- Settles O50: the product with `16 * DL` is the second half of what characterises the rate. -/
theorem actualRateTimesDivisorIsClock : Obligations.ActualRateTimesDivisorIsClock := by
  intro f dl
  exact ⟨actualRate_eq_none_iff f dl, fun q hq => ((actualRate_eq_some_iff f dl q).mp hq).2⟩

/-! ### The two roundings (R171) -/

/-- Rounding to the nearest adds one to the floor exactly when the remainder is at least half of the denominator. -/
theorem roundedQuotient_nearest {r : Nat} (hr : 0 < r) (f : Nat) :
    roundedQuotient .nearest f r =
      roundedQuotient .floor f r + if 16 * r ≤ 2 * (f % (16 * r)) then 1 else 0 := by
  have hlt : f % (16 * r) < 16 * r := Nat.mod_lt _ (by omega)
  calc (f + 8 * r) / (16 * r)
      = (16 * r * (f / (16 * r)) + (f % (16 * r) + 8 * r)) / (16 * r) := by
        rw [← Nat.add_assoc, Nat.div_add_mod]
    _ = f / (16 * r) + (f % (16 * r) + 8 * r) / (16 * r) := Nat.mul_add_div (by omega) _ _
    _ = f / (16 * r) + if 16 * r ≤ 2 * (f % (16 * r)) then 1 else 0 := by
        congr 1
        split
        · exact Nat.div_eq_of_lt_le (by omega) (by omega)
        · exact Nat.div_eq_of_lt (by omega)

theorem roundedQuotient_floor_eq_floor (f r : Nat) :
    (roundedQuotient .floor f r : Int) = ((f : Rat) / (16 * r)).floor := by
  have hfloor := Rat.floor_natCast_div_natCast f (16 * r)
  push_cast at hfloor
  exact hfloor.symm

theorem roundedQuotient_nearest_eq_floor {r : Nat} (hr : 0 < r) (f : Nat) :
    (roundedQuotient .nearest f r : Int) = ((f : Rat) / (16 * r) + 1 / 2).floor := by
  have hsum : (f : Rat) / (16 * r) + 1 / 2 = ((f + 8 * r : Nat) : Rat) / ((16 * r : Nat) : Rat) := by
    push_cast
    field_simp
    ring
  rw [hsum]
  exact (Rat.floor_natCast_div_natCast _ _).symm

/-- Settles O48: nearest is floor plus one exactly where the remainder is at least a half. -/
theorem roundingModesDiffer : Obligations.RoundingModesDiffer := by
  refine ⟨fun _ => rfl, fun f r hr => ⟨roundedQuotient_floor_eq_floor f r, roundedQuotient_nearest_eq_floor hr f, ?_⟩⟩
  rw [roundedQuotient_nearest hr]
  split <;> simp [*]

/-! ### The divisor (R170, R172) -/

theorem clamp_eq_max_min {lo hi : Nat} (h : lo ≤ hi) (q : Nat) : clamp q lo hi = max lo (min hi q) := by
  unfold clamp
  split
  · omega
  · split <;> omega

theorem divCalc_eq_none_iff (m : Rounding) (f r : Nat) : divCalc m f r = none ↔ r = 0 := by
  simp [divCalc]

/-- The divisor of a positive rate, as a number: the rounded quotient brought into 1 .. 65535. -/
theorem divCalc_eq_some_iff (m : Rounding) (f r : Nat) (d : Half) :
    divCalc m f r = some d ↔ 0 < r ∧ d.toNat = max 1 (min 65535 (roundedQuotient m f r)) := by
  rw [divCalc, clamp_eq_max_min (by decide)]
  have hfits : max 1 (min 65535 (roundedQuotient m f r)) < 2 ^ 16 := by omega
  split
  · simp [*]
  · rw [Option.some_inj, ← BitVec.toNat_inj, BitVec.toNat_ofNat, Nat.mod_eq_of_lt hfits]
    omega

/-- The floor divisor brackets the clock, except at the end of the range where the quotient was clamped. -/
theorem divCalc_floor_bounds {f r : Nat} {d : Half} (hd : divCalc .floor f r = some d) :
    (1 < d.toNat → 16 * r * d.toNat ≤ f) ∧ (d.toNat < 65535 → f < 16 * r * (d.toNat + 1)) := by
  obtain ⟨hr, hvalue⟩ := (divCalc_eq_some_iff .floor f r d).mp hd
  have hpos : 0 < 16 * r := by omega
  change d.toNat = max 1 (min 65535 (f / (16 * r))) at hvalue
  constructor
  · intro hlow
    have hle : d.toNat ≤ f / (16 * r) := by omega
    exact (Nat.mul_le_mul_left _ hle).trans (Nat.mul_div_le f _)
  · intro hhigh
    have hlt : f / (16 * r) < d.toNat + 1 := by omega
    rw [Nat.mul_comm]
    exact (Nat.div_lt_iff_lt_mul hpos).mp hlt

/-- Settles O47: the divisor is the rounded quotient brought into range, and the floor quotient brackets the clock. -/
theorem divisorInRangeAndFloored : Obligations.DivisorInRangeAndFloored := by
  intro m f r
  refine ⟨divCalc_eq_none_iff m f r, fun d hd => ?_⟩
  obtain ⟨-, hvalue⟩ := (divCalc_eq_some_iff m f r d).mp hd
  refine ⟨by omega, by omega, ?_, ?_, ?_⟩
  · rintro rfl
    exact hvalue
  · rintro rfl
    exact hvalue
  · rintro rfl
    exact divCalc_floor_bounds hd

/-! ### Exact rates (R175) -/

/-- A multiple of `16 * rate` is divided without rounding, in either mode. -/
theorem roundedQuotient_mul {r : Nat} (hr : 0 < r) (m : Rounding) (q : Nat) :
    roundedQuotient m (16 * r * q) r = q := by
  have hfloor : roundedQuotient .floor (16 * r * q) r = q := Nat.mul_div_cancel_left q (by omega)
  cases m with
  | floor => exact hfloor
  | nearest =>
    rw [roundedQuotient_nearest hr, hfloor, Nat.mul_mod_right, if_neg (by omega), Nat.add_zero]

theorem divCalc_mul {r : Nat} (hr : 0 < r) (m : Rounding) {d : Half} (hd : d ≠ 0#16) :
    divCalc m (16 * r * d.toNat) r = some d := by
  rw [divCalc_eq_some_iff, roundedQuotient_mul hr]
  exact ⟨hr, by bv_omega⟩

theorem exactRate_eq_true_iff (f r : Nat) :
    exactRate f r = true ↔ f % (16 * r) = 0 ∧ 1 ≤ f / (16 * r) ∧ f / (16 * r) ≤ 65535 := by
  simp [exactRate, and_assoc]

/-- A rate is exact exactly when some divisor of the latch gives it. -/
theorem exactRate_iff_exists_divisor {r : Nat} (hr : 0 < r) (f : Nat) :
    exactRate f r = true ↔ ∃ d : Half, d ≠ 0#16 ∧ 16 * r * d.toNat = f := by
  rw [exactRate_eq_true_iff]
  constructor
  · rintro ⟨hdvd, hlow, hhigh⟩
    have hvalue : (BitVec.ofNat 16 (f / (16 * r))).toNat = f / (16 * r) := by
      rw [BitVec.toNat_ofNat]
      omega
    refine ⟨BitVec.ofNat 16 (f / (16 * r)), ?_, ?_⟩
    · bv_omega
    · rw [hvalue, Nat.mul_div_cancel' (Nat.dvd_of_mod_eq_zero hdvd)]
  · rintro ⟨d, hd, rfl⟩
    rw [Nat.mul_mod_right, Nat.mul_div_cancel_left _ (by omega)]
    exact ⟨rfl, by bv_omega, by omega⟩

/-- The error of a positive rate is 0 exactly when its divisor runs at that rate. -/
theorem rateError_eq_zero_iff {r : Nat} (hr : 0 < r) (m : Rounding) (f : Nat) :
    rateError m f r = some 0 ↔ ∃ d, divCalc m f r = some d ∧ actualRate f d = some (r : Rat) := by
  have hrate : (r : Rat) ≠ 0 := by exact_mod_cast hr.ne'
  simp only [rateError, Option.map_eq_some_iff, Option.bind_eq_some_iff, div_eq_zero_iff, hrate, or_false, sub_eq_zero,
    exists_eq_right]

theorem exactRate_iff_rateError_eq_zero {r : Nat} (hr : 0 < r) (m : Rounding) (f : Nat) :
    exactRate f r = true ↔ rateError m f r = some 0 := by
  simp only [exactRate_iff_exists_divisor hr, rateError_eq_zero_iff hr, actualRate_eq_some_natCast_iff]
  constructor
  · rintro ⟨d, hd, rfl⟩
    exact ⟨d, divCalc_mul hr m hd, hd, rfl⟩
  · rintro ⟨d, -, hd⟩
    exact ⟨d, hd⟩

/-- Settles O49: an exact rate is one that some divisor gives, and both modes find that divisor. -/
theorem exactRateHasNoError : Obligations.ExactRateHasNoError := by
  intro m f r hr
  refine ⟨fun d q hd hq => ?_, exactRate_eq_true_iff f r, exactRate_iff_rateError_eq_zero hr m f, fun hexact => ?_⟩
  · simp [rateError, hd, hq]
  · obtain ⟨d, hd, rfl⟩ := (exactRate_iff_exists_divisor hr f).mp hexact
    rw [divCalc_mul hr .floor hd, divCalc_mul hr .nearest hd]

end Sys2Proof.Machine
end

section
/-! PROOFS, family `44_gpio_output`: the output latch and the direction register (R190 to R193), and the line levels
(R194). -/

namespace Sys2Proof.Machine

/-! ### OUT and DIR (R190 to R193) -/

/-- Settles O38: the writes are `setOut` and `setDir`, and the reads answer the register itself, `OUT` whatever `DIR`
holds. -/
theorem outAndDirWriteAndRead : Obligations.OutAndDirWriteAndRead := by
  intro d x s
  exact ⟨decode_busWord_false s.dlab _ x, decode_busWord_true s.dlab _ d,
    decode_busWord_false s.dlab _ x, decode_busWord_true s.dlab _ d, exec_eq .rdOut s, exec_eq .rdDir s,
    ⟨s.setOut d, exec_eq (.wrOut d) s, rfl, exec_eq .rdOut (s.setOut d)⟩,
    ⟨s.setDir d, exec_eq (.wrDir d) s, rfl, exec_eq .rdDir (s.setDir d)⟩⟩

/-! ### The line levels (R194) -/

theorem pin_eq_high_iff (s : State) (j : Fin 8) :
    pin s j = .high ↔ s.dir.getLsbD j = true ∧ s.out.getLsbD j = true := by
  unfold pin
  cases s.dir.getLsbD j <;> cases s.out.getLsbD j <;> simp

theorem pin_eq_low_iff (s : State) (j : Fin 8) :
    pin s j = .low ↔ s.dir.getLsbD j = true ∧ s.out.getLsbD j = false := by
  unfold pin
  cases s.dir.getLsbD j <;> cases s.out.getLsbD j <;> simp

/-- Settles O39: WR_OUT is `setOut`, which keeps `DIR`, so every line level is read off the new latch. -/
theorem outWriteDrivesAllLines : Obligations.OutWriteDrivesAllLines := by
  refine ⟨fun s j => ⟨pin_eq_high_iff s j, pin_eq_low_iff s j, pin_eq_z_iff s j⟩, fun d s =>
    ⟨decode_busWord_true s.dlab _ d, s.setOut d, exec_eq (.wrOut d) s, rfl, fun j => ⟨fun hdir hout => ?_,
      fun hdir hout => ?_, fun hdir => ?_⟩⟩⟩
  · exact (pin_eq_high_iff (s.setOut d) j).mpr ⟨hdir, hout⟩
  · exact (pin_eq_low_iff (s.setOut d) j).mpr ⟨hdir, hout⟩
  · exact (pin_eq_z_iff (s.setOut d) j).mpr hdir

end Sys2Proof.Machine
end

section
/-! PROOFS, family `45_command_decode`: the decode policy (R214, R215, R218), the handler `on_byte_received` (R216) and
the host taking the interrupt (R217, R233, R234). -/

namespace Sys2Proof.Machine

open Sys2Proof.Safety

/-! ### Decoding, line by line (R214, R215) -/

/-- The byte with the one bit of a line. -/
theorem getLsbD_lineBit (j : Fin 8) (i : Nat) : (1#8 <<< j.val).getLsbD i = decide (i = j.val) := by
  rw [← BitVec.twoPow_eq, BitVec.getLsbD_twoPow, decide_eq_true j.isLt, Bool.true_and]
  exact decide_eq_decide.mpr eq_comm

theorem getLsbD_putBit (v : Byte) (j : Fin 8) (b : Bool) (i : Nat) :
    (putBit v j b).getLsbD i = if i = j.val then b else v.getLsbD i := by
  rcases Nat.lt_or_ge i 8 with hi | hi
  · cases b with
    | false =>
      simp only [putBit, Bool.false_eq_true, if_false, BitVec.getLsbD_and, BitVec.getLsbD_not, getLsbD_lineBit]
      by_cases hij : i = j.val <;> simp [hi, hij]
    | true =>
      simp only [putBit, if_true, BitVec.getLsbD_or, getLsbD_lineBit]
      by_cases hij : i = j.val <;> simp [hij]
  · rw [BitVec.getLsbD_of_ge _ _ hi, BitVec.getLsbD_of_ge _ _ hi, if_neg (by omega)]

theorem polarityInverts_eq (p : Polarity) : polarityInverts p = decide (p = .activeLow) := by
  cases p <;> rfl

/-- An entry writes its own line. -/
theorem getLsbD_applyEntry_same (cmd new : Byte) (e : MapEntry) :
    (applyEntry cmd new e).getLsbD e.line = Bool.xor (cmd.getLsbD e.bit) (decide (e.polarity = .activeLow)) := by
  rw [applyEntry, getLsbD_putBit, if_pos rfl, polarityInverts_eq]

/-- An entry leaves the other lines. -/
theorem getLsbD_applyEntry_of_ne (cmd new : Byte) {e : MapEntry} {j : Fin 8} (h : e.line ≠ j) :
    (applyEntry cmd new e).getLsbD j = new.getLsbD j := by
  rw [applyEntry, getLsbD_putBit, if_neg (by omega)]

theorem decodeCommand_cons (e : MapEntry) (map : DecodeMap) (cmd old : Byte) :
    decodeCommand (e :: map) cmd old = decodeCommand map cmd (applyEntry cmd old e) := rfl

/-- An unmapped line keeps its bit (R215). -/
theorem getLsbD_decodeCommand_unmapped {map : DecodeMap} {j : Fin 8} (h : ∀ e ∈ map, e.line ≠ j) (cmd old : Byte) :
    (decodeCommand map cmd old).getLsbD j = old.getLsbD j := by
  induction map generalizing old with
  | nil => rfl
  | cons e map ih =>
    obtain ⟨hne, hrest⟩ := List.forall_mem_cons.mp h
    rw [decodeCommand_cons, ih hrest, getLsbD_applyEntry_of_ne cmd old hne]

theorem lines_nodup {map : DecodeMap} (h : mapWf map = true) : (map.map (·.line)).Nodup := by
  obtain ⟨hlines, -⟩ := Bool.and_eq_true_iff.mp h
  exact of_decide_eq_true hlines

/-- A mapped line gets its command bit, inverted where it is active-low, for no later entry writes it again (R214). -/
theorem getLsbD_decodeCommand_mapped {map : DecodeMap} (hlines : (map.map (·.line)).Nodup) {e : MapEntry}
    (he : e ∈ map) (cmd old : Byte) : (decodeCommand map cmd old).getLsbD e.line =
      Bool.xor (cmd.getLsbD e.bit) (decide (e.polarity = .activeLow)) := by
  induction map generalizing old with
  | nil => cases he
  | cons first map ih =>
    obtain ⟨hfirst, hrest⟩ := List.nodup_cons.mp hlines
    rw [decodeCommand_cons]
    rcases List.mem_cons.mp he with rfl | he
    · have hunmapped : ∀ x ∈ map, x.line ≠ e.line := fun x hx hline =>
        hfirst (List.mem_map.mpr ⟨x, hx, hline⟩)
      rw [getLsbD_decodeCommand_unmapped hunmapped, getLsbD_applyEntry_same]
    · exact ih hrest he _

theorem getLsbD_mapMask (map : DecodeMap) (j : Fin 8) :
    (mapMask map).getLsbD j = true ↔ ∃ e ∈ map, e.line = j := by
  induction map with
  | nil => simp [mapMask]
  | cons e map ih =>
    change (1#8 <<< e.line.val ||| mapMask map).getLsbD j = true ↔ _
    rw [BitVec.getLsbD_or, Bool.or_eq_true, ih, getLsbD_lineBit, decide_eq_true_eq, List.exists_mem_cons_iff,
      Fin.val_inj, eq_comm]

/-- Settles O51: the bits of `decodeCommand` and of `mapMask`, by induction on the table. -/
theorem decodedLinesFollowTable : Obligations.DecodedLinesFollowTable := by
  intro map cmd old hwf
  exact ⟨fun e he => getLsbD_decodeCommand_mapped (lines_nodup hwf) he cmd old,
    fun j hj => getLsbD_decodeCommand_unmapped hj cmd old, getLsbD_mapMask map⟩

/-! ### Decoding has no memory (R218) -/

/-- On the mapped lines, decoding does not depend on the latch before it. -/
theorem decodeCommand_and_mapMask {map : DecodeMap} (hwf : mapWf map = true) (cmd old old' : Byte) :
    decodeCommand map cmd old &&& mapMask map = decodeCommand map cmd old' &&& mapMask map := by
  apply BitVec.eq_of_getLsbD_eq
  intro i hi
  rw [BitVec.getLsbD_and, BitVec.getLsbD_and]
  cases hmask : (mapMask map).getLsbD i with
  | false => simp
  | true =>
    obtain ⟨e, he, hline⟩ := (getLsbD_mapMask map ⟨i, hi⟩).mp hmask
    obtain rfl : e.line.val = i := congrArg Fin.val hline
    simp only [getLsbD_decodeCommand_mapped (lines_nodup hwf) he]

/-- On the unmapped lines, decoding leaves the latch. -/
theorem decodeCommand_and_not_mapMask (map : DecodeMap) (cmd old : Byte) :
    decodeCommand map cmd old &&& ~~~(mapMask map) = old &&& ~~~(mapMask map) := by
  apply BitVec.eq_of_getLsbD_eq
  intro i hi
  rw [BitVec.getLsbD_and, BitVec.getLsbD_and, BitVec.getLsbD_not]
  cases hmask : (mapMask map).getLsbD i with
  | true => simp
  | false =>
    have hunmapped : ∀ e ∈ map, e.line ≠ ⟨i, hi⟩ := fun e he hline => by
      have hset := (getLsbD_mapMask map ⟨i, hi⟩).mpr ⟨e, he, hline⟩
      simp [hmask] at hset
    have hkept := getLsbD_decodeCommand_unmapped hunmapped cmd old
    rw [hkept]

/-- Two bytes that agree on a mask and off it are the same. -/
theorem byte_eq_of_masked {v w m : Byte} (hon : v &&& m = w &&& m) (hoff : v &&& ~~~m = w &&& ~~~m) : v = w := by
  have hsplit (x : Byte) : (x &&& m) ||| (x &&& ~~~m) = x := by
    rw [← BitVec.and_or_distrib_left, BitVec.or_not_self, BitVec.and_allOnes]
  rw [← hsplit v, hon, hoff, hsplit w]

theorem decodeCommand_idem {map : DecodeMap} (hwf : mapWf map = true) (cmd old : Byte) :
    decodeCommand map cmd (decodeCommand map cmd old) = decodeCommand map cmd old :=
  byte_eq_of_masked (decodeCommand_and_mapMask hwf cmd _ old) (decodeCommand_and_not_mapMask map cmd _)

/-- The full variant-1 table maps every line to its own bit (R212). -/
theorem decodeCommand_fullDirectMap (cmd old : Byte) : decodeCommand fullDirectMap cmd old = cmd := by
  apply BitVec.eq_of_getLsbD_eq
  intro i hi
  have hall : ∀ j : Fin 8, ⟨j, j, .activeHigh⟩ ∈ fullDirectMap := by decide
  have hbit := getLsbD_decodeCommand_mapped (by decide) (hall ⟨i, hi⟩) cmd old
  simpa using hbit

/-- Settles O52: decoding settles the mapped lines and leaves the others, so a second decoding changes nothing. -/
theorem decodingHasNoMemory : Obligations.DecodingHasNoMemory := by
  intro map c₁ c₂ old hwf
  have hmapped := fun e he => getLsbD_decodeCommand_mapped (lines_nodup hwf) (e := e) he c₁ old
  refine ⟨fun e he hbit hhigh => ?_, hmapped, decodeCommand_idem hwf c₁ old,
    decodeCommand_and_mapMask hwf c₂ _ old, decodeCommand_and_not_mapMask map c₁ old, rfl,
    decodeCommand_fullDirectMap c₁ old⟩
  rw [hmapped e he, hbit, hhigh]
  simp

/-! ### The handler's four transactions (R216) -/

/-- What is left of the handler once it has read the byte `c` and the latch `o`. -/
def handlerWriteLatch (map : DecodeMap) (c o : Byte) : HostProg :=
  .write offOut (decodeCommand map c o) .done

/-- What is left of the handler once it has read the byte `c`. -/
def handlerReadLatch (map : DecodeMap) (c : Byte) : HostProg := .read offOut (handlerWriteLatch map c)

/-- What is left of the handler once its spin has ended. -/
def handlerReadByte (map : DecodeMap) : HostProg := .read offRbr (handlerReadLatch map)

theorem handler_eq_poll {map : DecodeMap} (hwf : mapWf map = true) :
    handler map .done = .poll offLsr 0 (handlerReadByte map) := handler_of_wf map .done hwf

/-- A spin on LSR's bit 0 ends where `DR = 1`. -/
theorem rest_poll_dr (k : HostProg) (s : State) :
    (HostProg.poll offLsr 0 k).rest s = if s.dr then k else .poll offLsr 0 k := by
  have hbit : (lsrValue s).getLsbD 0 = s.dr := by
    rw [getLsbD_lsrValue]
    simp
  rw [← hbit, HostProg.rest, busRead_lsr]
  rfl

section HandlerTurns

variable (v : HostVariant) (p : Config.Params) {y : System} {hs : List HostProg}

/-- A host turn in which the decoder's next action is a bus transaction. -/
theorem turn_decoder {h : HostProg} (hd : y.decoders = h :: hs) (href : h.refuses = false) (hen : h.enables = false) :
    y.turn v p .host =
      { y with block := h.effect y.block
               decoders := if (h.rest y.block).isDone then hs else h.rest y.block :: hs } := by
  simp [System.turn, hostTurn_decoder v p y h hs hd, System.decoderTurn, href, hen]

/-- The spin reads LSR, and ends where it finds `DR = 1`. -/
theorem turn_handler (hwf : mapWf p.map = true) (hd : y.decoders = handler p.map .done :: hs) :
    y.turn v p .host =
      { y with block := y.block.answer .lsr (lsrValue y.block)
               decoders := (if y.block.dr then handlerReadByte p.map else handler p.map .done) :: hs } := by
  rw [handler_eq_poll hwf] at hd ⊢
  rw [turn_decoder v p hd rfl rfl, rest_poll_dr]
  cases y.block.dr <;> simp [HostProg.effect, HostProg.isDone, handlerReadByte]

theorem turn_handlerReadByte (hd : y.decoders = handlerReadByte p.map :: hs) (hdlab : y.block.dlab = false) :
    y.turn v p .host =
      { y with block := (y.block.answer .rbr y.block.rbr).clearDr
               decoders := handlerReadLatch p.map y.block.rbr :: hs } := by
  rw [turn_decoder v p hd rfl rfl]
  simp [HostProg.effect, HostProg.rest, HostProg.isDone, handlerReadByte, handlerReadLatch, busRead_rbr _ hdlab]

theorem turn_handlerReadLatch {c : Byte} (hd : y.decoders = handlerReadLatch p.map c :: hs) :
    y.turn v p .host =
      { y with block := y.block.answer .out y.block.out
               decoders := handlerWriteLatch p.map c y.block.out :: hs } := by
  rw [turn_decoder v p hd rfl rfl]
  simp [HostProg.effect, HostProg.rest, HostProg.isDone, handlerReadLatch, handlerWriteLatch]

theorem turn_handlerWriteLatch {c o : Byte} (hd : y.decoders = handlerWriteLatch p.map c o :: hs) :
    y.turn v p .host =
      { y with block := y.block.setOut (decodeCommand p.map c o)
               decoders := hs } := by
  rw [turn_decoder v p hd rfl rfl]
  simp [HostProg.effect, HostProg.rest, HostProg.isDone, handlerWriteLatch]

end HandlerTurns

/-- Settles O54: the handler's four turns in a row, the first of which finds `DR = 1`. -/
theorem handlerWritesDecodedByte : Obligations.HandlerWritesDecodedByte := by
  intro v p y hs hwf hd hdr hdlab
  refine ⟨lsrValue y.block, ?_⟩
  rw [run_cons, turn_handler v p hwf hd, if_pos hdr, run_cons, turn_handlerReadByte (hs := hs) v p rfl ?dlab,
    run_cons, turn_handlerReadLatch (c := y.block.rbr) (hs := hs) v p rfl, run_cons,
    turn_handlerWriteLatch (c := y.block.rbr) (o := y.block.out) (hs := hs) v p rfl]
  · simp [State.answer, State.clearDr, State.setOut]
  · exact hdlab

/-! ### What happens between the handler's transactions (R56, R260) -/

theorem decodeEvent_isEvent (e : EventCode) (x : Byte) : (decodeEvent e x).isEvent = true := by
  unfold decodeEvent
  split <;> rfl

/-- An event other than EV_RESET leaves `OUT` and `DLAB`, and returns nothing to the host. -/
theorem after_event_keeps (i : Instr) (s : State) (hevent : i.isEvent = true) (hreset : i ≠ .evReset) :
    (after i s).out = s.out ∧ (after i s).dlab = s.dlab ∧ (after i s).readLog = s.readLog := by
  cases i
  case evReset => exact absurd rfl hreset
  case rxFrame p => rw [after_rxFrame]; split <;> exact ⟨rfl, rfl, rfl⟩
  case txLoad => rw [after_txLoad]; split <;> exact ⟨rfl, rfl, rfl⟩
  case txDone => rw [after_txDone]; split <;> exact ⟨rfl, rfl, rfl⟩
  case evRsv e => exact ⟨rfl, rfl, rfl⟩
  all_goals cases hevent

/-- How far the handler's one invocation has come: the bytes it has read from `RBR`, and what is left of it, where
`OUT` is `o` throughout. -/
inductive HandlerPhase (map : DecodeMap) (o : Byte) : List Byte → HostProg → Prop where
  | polling : HandlerPhase map o [] (handler map .done)
  | byteReady : HandlerPhase map o [] (handlerReadByte map)
  | byteRead (c : Byte) : HandlerPhase map o [c] (handlerReadLatch map c)
  | latchRead (c : Byte) : HandlerPhase map o [c] (handlerWriteLatch map c o)

/-- INVARIANT: the one invocation of the decoder, begun in the block `s₀`, is under way, `OUT` and `DLAB` as they were,
and since then `RBR` has been read by it alone. -/
def HandlerRunning (map : DecodeMap) (s₀ : State) (y : System) : Prop :=
  y.block.out = s₀.out ∧ y.block.dlab = false ∧ ∃ cs h, HandlerPhase map s₀.out cs h ∧
    y.decoders = [h] ∧ readsOf .rbr y.block = readsOf .rbr s₀ ++ cs

/-- The one invocation of the decoder, begun in the block `s₀`, has read `RBR` once and written what it decodes to. -/
def HandlerFinished (map : DecodeMap) (s₀ : State) (y : System) : Prop :=
  y.decoders = [] ∧ ∃ c, readsOf .rbr y.block = readsOf .rbr s₀ ++ [c] ∧ y.block.out = decodeCommand map c s₀.out

section HandlerRuns

variable {v : HostVariant} {p : Config.Params} {s₀ : State} {y : System}

/-- The handler's own turn takes it to its next phase, or ends it. -/
theorem HandlerRunning.turn_host (hwf : mapWf p.map = true) (hrun : HandlerRunning p.map s₀ y) :
    HandlerRunning p.map s₀ (y.turn v p .host) ∨ HandlerFinished p.map s₀ (y.turn v p .host) := by
  obtain ⟨hout, hdlab, cs, h, hphase, hd, hreads⟩ := hrun
  cases hphase with
  | polling =>
    rw [turn_handler v p hwf hd]
    refine .inl ⟨hout, hdlab, [], _, ?_, rfl, by simpa using hreads⟩
    split
    · exact .byteReady
    · exact .polling
  | byteReady =>
    rw [turn_handlerReadByte v p hd hdlab]
    exact .inl ⟨hout, hdlab, [y.block.rbr], _, .byteRead _, rfl, by simpa using hreads⟩
  | byteRead c =>
    rw [turn_handlerReadLatch v p hd, hout]
    exact .inl ⟨hout, hdlab, [c], _, .latchRead c, rfl, by simpa using hreads⟩
  | latchRead c =>
    rw [turn_handlerWriteLatch v p hd]
    exact .inr ⟨rfl, c, hreads, rfl⟩

/-- An event of another agent leaves the handler where it is. -/
theorem HandlerRunning.turn_event (hrun : HandlerRunning p.map s₀ y) {e : EventCode} (he : e ≠ 0b00000#5) (x : Byte) :
    HandlerRunning p.map s₀ (y.turn v p (.event e x)) := by
  obtain ⟨hout, hdlab, cs, h, hphase, hd, hreads⟩ := hrun
  obtain ⟨hout', hdlab', hlog⟩ :=
    after_event_keeps (decodeEvent e x) y.block (decodeEvent_isEvent e x) (decodeEvent_ne_reset e x he)
  simp only [HandlerRunning, System.turn, deliver_event, readsOf, hout', hdlab', hlog]
  exact ⟨hout, hdlab, cs, h, hphase, hd, hreads⟩

/-- While the handler runs, R5(b) rules out that the interrupt is taken. -/
theorem HandlerRunning.turn_interrupt (hrun : HandlerRunning p.map s₀ y)
    (hb : handlerNotReentered v p [.interrupt] y = true) : y.turn v p .interrupt = y := by
  obtain ⟨-, -, -, h, -, hd, -⟩ := hrun
  have hnot : y.takesInterrupt v = false := by simpa [handlerNotReentered, atEveryTurn, hd] using hb
  simp [System.turn, hnot]

/-- Under R5(a) and R5(b), a turn that resets nothing keeps the handler running or is its last. -/
theorem HandlerRunning.turn (hwf : mapWf p.map = true) (hrun : HandlerRunning p.map s₀ y) (t : Turn)
    (ha : singleHost [t] = true) (hb : handlerNotReentered v p [t] y = true) (hr : noReset [t] = true) :
    HandlerRunning p.map s₀ (y.turn v p t) ∨ HandlerFinished p.map s₀ (y.turn v p t) := by
  cases t with
  | host => exact hrun.turn_host hwf
  | interrupt => rw [hrun.turn_interrupt hb]; exact .inl hrun
  | event e x => exact .inl (hrun.turn_event (by simpa [noReset] using hr) x)
  | other w a d => simp [singleHost] at ha
  | systemReset order => simp [noReset] at hr

end HandlerRuns

theorem singleHost_cons (t : Turn) (ts : List Turn) :
    singleHost (t :: ts) = true ↔ singleHost [t] = true ∧ singleHost ts = true := by
  simp [singleHost]

theorem noReset_cons (t : Turn) (ts : List Turn) :
    noReset (t :: ts) = true ↔ noReset [t] = true ∧ noReset ts = true := by
  simp [noReset]

theorem handlerNotReentered_cons (v : HostVariant) (p : Config.Params) (t : Turn) (ts : List Turn) (y : System) :
    handlerNotReentered v p (t :: ts) y = true ↔
      handlerNotReentered v p [t] y = true ∧ handlerNotReentered v p ts (y.turn v p t) = true := by
  simp [handlerNotReentered, atEveryTurn]

theorem endsDecoder_tail {v : HostVariant} {p : Config.Params} {t : Turn} {ts : List Turn} {y : System}
    (h : endsDecoder v p (t :: ts) y) : endsDecoder v p ts (y.turn v p t) :=
  ⟨h.1, fun n hn => h.2 (n + 1) (Nat.succ_lt_succ hn)⟩

/-- A run that ends the decoder with its last turn has no turn left once the decoder has ended. -/
theorem eq_nil_of_endsDecoder {v : HostVariant} {p : Config.Params} {ts : List Turn} {y : System}
    (h : endsDecoder v p ts y) (hd : y.decoders = []) : ts = [] := by
  by_contra hne
  exact h.2 0 (List.length_pos_of_ne_nil hne) hd

/-- A run under R5(a) and R5(b) that resets nothing and ends with the handler finishes it as R216 says. -/
theorem HandlerRunning.run {v : HostVariant} {p : Config.Params} (hwf : mapWf p.map = true) {s₀ : State}
    (ts : List Turn) (y : System) (hrun : HandlerRunning p.map s₀ y) (ha : singleHost ts = true)
    (hb : handlerNotReentered v p ts y = true) (hr : noReset ts = true) (hends : endsDecoder v p ts y) :
    HandlerFinished p.map s₀ (y.run v p ts) := by
  induction ts generalizing y with
  | nil =>
    obtain ⟨-, -, -, h, -, hd, -⟩ := hrun
    cases hd.symm.trans hends.1
  | cons t ts ih =>
    obtain ⟨hat, hats⟩ := (singleHost_cons t ts).mp ha
    obtain ⟨hbt, hbts⟩ := (handlerNotReentered_cons v p t ts y).mp hb
    obtain ⟨hrt, hrts⟩ := (noReset_cons t ts).mp hr
    have hendsRest := endsDecoder_tail hends
    rw [run_cons]
    rcases hrun.turn hwf t hat hbt hrt with hrunning | hfinished
    · exact ih _ hrunning hats hbts hrts hendsRest
    · obtain rfl := eq_nil_of_endsDecoder hendsRest hfinished.1
      exact hfinished

/-- Settles O55, by induction on the turns: each keeps the handler running, or is its last. -/
theorem handlerIsAtomicForOut : Obligations.HandlerIsAtomicForOut := by
  intro v p ts y hwf hd hdlab ha hb hr hends
  have hstart : HandlerRunning p.map y.block y :=
    ⟨rfl, hdlab, [], _, .polling, hd, (List.append_nil _).symm⟩
  exact (hstart.run hwf ts y ha hb hr hends).2

/-! ### Taking the interrupt (R217, R233, R234) -/

/-- Settles O56: the interrupt variant takes the interrupt on `takesInterrupt`, the blocking one never. -/
theorem takingInterruptLeavesBlock : Obligations.TakingInterruptLeavesBlock := by
  intro p y
  refine ⟨fun hon hirq => ?_, fun hoff => ?_, rfl, fun hdec hops hmain => ?_⟩
  · have htakes : y.takesInterrupt .interrupt = true := by simp [System.takesInterrupt, hon, hirq]
    exact if_pos htakes
  · have hnot : y.takesInterrupt .interrupt = false := by
      simpa [System.takesInterrupt, ← Bool.and_eq_false_iff] using hoff
    simp [System.turn, hnot]
  · have hbegin : y.begin p = y := by simp [System.begin, hops]
    have hdone : y.main.isDone = true := by simp [hmain, HostProg.isDone]
    simp [System.turn, hostTurn_main _ _ _ hdec, hbegin, System.mainTurn, hdone, System.enterDecoder, hdec]

end Sys2Proof.Machine
end

section
/-! PROOFS, family `70_reset_and_hazards`: the initial state of a run is the one EV_RESET produces (R250, R252). -/

namespace Sys2Proof.Machine

/-- EV_RESET forgets all of the state but its run fields (R250): the rest is as at power-on, with a new draw. -/
theorem hardReset_eq_reset (s : State) : s.hardReset = { State.reset with
    rbr := Config.rbrDraw s.draws, thr := Config.thrDraw s.draws, tsr := Config.tsrDraw s.draws, draws := s.draws + 1,
    txdLog := s.txdLog, refused := s.refused, readLog := s.readLog, schedule := s.schedule } := rfl

/-- Settles O12: EV_RESET answers `hardReset`, which `hardReset_eq_reset` compares with the initial state field by
field; the unspecified bytes are the free values of its draw. -/
theorem runStartsInResetState : Obligations.RunStartsInResetState := by
  refine ⟨rfl, rfl, fun s => ⟨Config.rbrDraw s.draws, Config.thrDraw s.draws, Config.tsrDraw s.draws, s.draws + 1, ?_⟩⟩
  rw [exec_eq, after_evReset, hardReset_eq_reset]

end Sys2Proof.Machine
end

section
/-! PROOFS, family `other`, the stimulus words: encoding and decoding undo each other (R70 to R77), the mode (R74), the
words the rules write out, and the words of the assembler (R79). -/

namespace Sys2Proof.Machine

/-! ### From a stimulus to its word and back (R70 to R77) -/

/-- The reserved event codes as numbers (R77). -/
theorem isReservedEvent_iff (e : EventCode) : isReservedEvent e = true ↔ 4 ≤ e.toNat := by
  rw [isReservedEvent, decide_eq_true_eq, BitVec.le_def]
  rfl

/-- A stimulus that needs a mode fits that mode alone. -/
theorem eq_of_fits_of_mode {i : Instr} {dlab b : Bool} (hfits : i.fits dlab = true) (hmode : i.mode = some b) :
    dlab = b := by
  have hb : b = dlab := by simpa [Instr.fits, hmode] using hfits
  exact hb.symm

/-- Settles O3: each stimulus is the row of its offset or code; `fits` settles the mode of the banked offsets, and
well-formedness the row of the reserved ones. -/
theorem decodeOfEncodeIsIdentity : Obligations.DecodeOfEncodeIsIdentity := by
  intro dlab i hwf hfits
  cases i
  case rdRsv a => exact (decode_busWord_false dlab a 0).trans (decodeRead_reserved dlab a hwf)
  case wrRsv a d => exact (decode_busWord_true dlab a d).trans (decodeWrite_reserved dlab a d hwf)
  case evRsv e => exact (decode_eventWord dlab e 0).trans (decodeEvent_reserved e 0 ((isReservedEvent_iff e).mp hwf))
  case rdRbr | rdDll | rdIer | rdDlm =>
    obtain rfl := eq_of_fits_of_mode hfits rfl
    exact decode_busWord_false _ _ 0
  case wrThr d | wrDll d | wrIer d | wrDlm d =>
    obtain rfl := eq_of_fits_of_mode hfits rfl
    exact decode_busWord_true _ _ d
  case rdLcr | rdEnr | rdLsr | rdOut | rdDir => exact decode_busWord_false dlab _ 0
  case wrLcr d | wrEnr d | wrLsr d | wrOut d | wrDir d => exact decode_busWord_true dlab _ d
  case evReset | txLoad | txDone => exact decode_eventWord dlab _ 0
  case rxFrame p => exact decode_eventWord dlab _ p

/-! ### From a word to its stimulus and back (R72, R73) -/

theorem head_busWord (b : Bool) (a : Offset) (d : Byte) : (busWord b a d).head = (0#1 ++ BitVec.ofBool b ++ a) :=
  head_append _ d

theorem head_eventWord (e : EventCode) (p : Byte) : (eventWord e p).head = (1#1 ++ e) := head_append _ p

/-- A bit vector is the literal of the number it holds. -/
theorem eq_ofNat_of_toNat_eq {w n : Nat} {v : BitVec w} (h : v.toNat = n) : v = BitVec.ofNat w n := by
  rw [← h, BitVec.ofNat_toNat, BitVec.setWidth_eq]

theorem encode_decodeRead (dlab : Bool) (a : Offset) : encode (decodeRead dlab a) = busWord false a 0 := by
  revert dlab a
  decide

theorem encode_decodeWrite (dlab : Bool) (a : Offset) (d : Byte) :
    encode (decodeWrite dlab a d) = busWord true a d := by
  unfold decodeWrite
  split
  case h_1 h | h_2 h =>
    obtain rfl := eq_ofNat_of_toNat_eq h
    cases dlab <;> rfl
  case h_8 => rfl
  all_goals
    rename_i h
    obtain rfl := eq_ofNat_of_toNat_eq h
    rfl

/-- An event keeps its code; its payload is kept by RX_FRAME alone (R75). -/
theorem exists_encode_decodeEvent (e : EventCode) (p : Byte) : ∃ x, encode (decodeEvent e p) = eventWord e x := by
  unfold decodeEvent
  split
  case h_5 => exact ⟨0, rfl⟩
  all_goals
    rename_i h
    obtain rfl := eq_ofNat_of_toNat_eq h
    exact ⟨_, rfl⟩

/-- Re-encoding a decoded word changes at most its ignored bits. -/
theorem head_encode_decode (dlab : Bool) (w : Word) : (encode (decode dlab w)).head = w.head := by
  obtain ⟨hk, h⟩ | ⟨hk, hw, h⟩ | ⟨hk, hw, h⟩ := decode_cases dlab w
  · obtain ⟨x, hx⟩ := exists_encode_decodeEvent w.event w.data
    rw [h, hx, head_eventWord, eq_eventWord w hk, head_eventWord, event_eventWord]
  · rw [h, encode_decodeWrite, head_busWord, eq_busWord w hk, head_busWord, offset_busWord, hw]
  · rw [h, encode_decodeRead, head_busWord, eq_busWord w hk, head_busWord, offset_busWord, hw]

/-- Settles O4: the bits kept by `head_encode_decode`, and O3 for the well-formed stimulus that decoding gave. -/
theorem encodeOfDecodeKeepsOpcode : Obligations.EncodeOfDecodeKeepsOpcode := by
  intro dlab w
  obtain ⟨hwf, hfits⟩ := decode_wf dlab w
  exact ⟨head_encode_decode dlab w, decodeOfEncodeIsIdentity dlab _ hwf hfits⟩

/-! ### The mode (R74) -/

theorem decodeRead_banked_iff (a : Offset) : decodeRead false a ≠ decodeRead true a ↔ a = 0x0#4 ∨ a = 0x1#4 := by
  revert a
  decide

theorem decodeWrite_banked_iff (a : Offset) (d : Byte) :
    decodeWrite false a d ≠ decodeWrite true a d ↔ a = 0x0#4 ∨ a = 0x1#4 := by
  unfold decodeWrite
  split
  case h_8 h0 h1 _ _ _ _ _ =>
    refine iff_of_false (fun hne => hne rfl) ?_
    rintro (rfl | rfl)
    · exact h0 rfl
    · exact h1 rfl
  all_goals
    rename_i h
    obtain rfl := eq_ofNat_of_toNat_eq h
    simp

/-- Settles O7: the offset of a host transaction is banked exactly at 0x0 and 0x1, and an event's code never. -/
theorem dlabBanksOffsets0And1Only : Obligations.DlabBanksOffsets0And1Only := by
  intro w
  change decode false w ≠ decode true w ↔ w.kind = false ∧ (w.offset = 0x0#4 ∨ w.offset = 0x1#4)
  cases hk : w.kind with
  | true => simp [decode, hk]
  | false =>
    cases hw : w.isWrite with
    | true => simpa [decode, hk, hw] using decodeWrite_banked_iff w.offset w.data
    | false => simpa [decode, hk, hw] using decodeRead_banked_iff w.offset

/-! ### The words as numbers -/

theorem toNat_append_eq_add {m n : Nat} (x : BitVec m) (y : BitVec n) :
    (x ++ y).toNat = x.toNat * 2 ^ n + y.toNat := by
  rw [BitVec.toNat_append, ← Nat.shiftLeft_add_eq_or_of_lt y.isLt, Nat.shiftLeft_eq]

theorem toNat_busWord (b : Bool) (a : Offset) (d : Byte) :
    (busWord b a d).toNat = 0x1000 * b.toNat + 0x100 * a.toNat + d.toNat := by
  simp only [busWord, toNat_append_eq_add, BitVec.toNat_ofBool, BitVec.toNat_ofNat]
  omega

theorem toNat_eventWord (e : EventCode) (p : Byte) :
    (eventWord e p).toNat = 0x2000 + 0x100 * e.toNat + p.toNat := by
  simp only [eventWord, toNat_append_eq_add, BitVec.toNat_ofNat]
  omega

/-- Settles O8: `toNat_busWord` and `toNat_eventWord` at the offset or code of each stimulus. -/
theorem encodedWordsAreTheSpecs : Obligations.EncodedWordsAreTheSpecs := by
  refine ⟨fun d => ?_, fun a d => ?_, fun e => toNat_eventWord e 0, by decide⟩
  · simp [encode, toNat_busWord, toNat_eventWord]
  · simp [encode, toNat_busWord]

/-- Settles O9: nine closed evaluations of the decoder. -/
theorem sampleWordsDecode : Obligations.SampleWordsDecode := by
  unfold Obligations.SampleWordsDecode
  decide

/-! ### The assembler (R79) -/

/-- The assembler's sum of the code's word and the payload is the word of RX_FRAME. -/
theorem word_evRx (p : Byte) : (AsmLine.evRx p).word = encode (.rxFrame p) := by
  apply BitVec.eq_of_toNat_eq
  rw [encode, toNat_eventWord, AsmLine.word, BitVec.toNat_add, BitVec.zeroExtend_eq_setWidth, BitVec.toNat_setWidth,
    BitVec.toNat_ofNat, BitVec.toNat_ofNat]
  omega

/-- Settles O10: a register's line is the bus word of its offset, which decodes by the mode. -/
theorem assemblerWordsAreStimuli : Obligations.AssemblerWordsAreStimuli := by
  refine ⟨by decide, fun dlab d => ?_, by decide, by decide, by decide, word_evRx⟩
  simp only [AsmLine.word, decode_busWord_true]
  cases dlab <;> rfl

end Sys2Proof.Machine
end

section
/-! PROOFS, family `other`, single stimuli: which of them write the receive path, the run records, the lines and the
idle transmitter (R22, R23, R33, R195, R251, R254), and that none stops the block (R230). -/

namespace Sys2Proof.Machine

open Sys2Proof.Safety

/-! ### The receive path (R22, R23, R232) -/

/-- Everything a stimulus can do to `RBR` and `DR`: a frame is taken, RD_RBR clears `DR`, EV_RESET, or nothing. -/
theorem after_receive_cases (i : Instr) (s : State) :
    (∃ p, i = .rxFrame p ∧ rxActive s = true ∧ after i s = s.receive p) ∨
    (i = .rdRbr ∧ (after i s).rbr = s.rbr ∧ (after i s).dr = false) ∨
    (i = .evReset ∧ (after i s).dr = false) ∨
    ((after i s).rbr = s.rbr ∧ (after i s).dr = s.dr) := by
  by_cases hframe : ∃ p, i = .rxFrame p
  · obtain ⟨p, rfl⟩ := hframe
    cases hact : rxActive s with
    | true => exact .inl ⟨p, rfl, rfl, after_rxFrame_active p s hact⟩
    | false =>
      rw [after_rxFrame_inactive p s hact]
      exact .inr (.inr (.inr ⟨rfl, rfl⟩))
  by_cases hread : i = .rdRbr
  · subst hread
    exact .inr (.inl ⟨rfl, rfl, rfl⟩)
  by_cases hreset : i = .evReset
  · subst hreset
    exact .inr (.inr (.inl ⟨rfl, rfl⟩))
  obtain ⟨hrbr, hdr, -⟩ := after_keeps_receive i s (not_exists.mp hframe) hread hreset
  exact .inr (.inr (.inr ⟨hrbr, hdr⟩))

/-- `DR` rises only where a frame is taken. -/
theorem rxFrame_of_dr_rises {i : Instr} {s : State} (hdr : s.dr = false) (hrise : (after i s).dr = true) :
    (∃ p, i = .rxFrame p) ∧ rxActive s = true := by
  obtain ⟨p, hi, hact, -⟩ | ⟨-, -, hfalls⟩ | ⟨-, hfalls⟩ | ⟨-, hkept⟩ := after_receive_cases i s
  · exact ⟨⟨p, hi⟩, hact⟩
  · exact absurd hrise (by simp [hfalls])
  · exact absurd hrise (by simp [hfalls])
  · exact absurd hrise (by simp [hkept, hdr])

/-- `RBR` changes only at a reset, or to the payload of a frame that is taken. -/
theorem evReset_or_rxFrame_of_rbr_changes {i : Instr} {s : State} (hne : (after i s).rbr ≠ s.rbr) :
    i = .evReset ∨ (i = .rxFrame (after i s).rbr ∧ rxActive s = true) := by
  obtain ⟨p, hi, hact, htaken⟩ | ⟨-, hkept, -⟩ | ⟨hi, -⟩ | ⟨hkept, -⟩ := after_receive_cases i s
  · exact .inr ⟨by rw [htaken]; exact hi, hact⟩
  · exact absurd hkept hne
  · exact .inl hi
  · exact absurd hkept hne

/-- Settles O18: the three clauses are read off `after_receive_cases`. -/
theorem receiveStateWriters : Obligations.ReceiveStateWriters := by
  intro i s t ht
  obtain rfl := (exec_next_iff i s t).mp ht
  simp only [← rxActive_iff]
  exact ⟨rxFrame_of_dr_rises, eq_rdRbr_or_evReset_of_dr_falls i s, evReset_or_rxFrame_of_rbr_changes⟩

/-- Settles O20: RD_RBR leaves the receiver active, and the frame is taken before it and after it. -/
theorem frameAndReadInEitherOrder : Obligations.FrameAndReadInEitherOrder := by
  intro p s hen hdl
  have hbefore : rxActive s = true := (rxActive_iff s).mpr ⟨hen, hdl⟩
  have hafter : rxActive (after .rdRbr s) = true := hbefore
  have hread : afterAll [.rdRbr, .rxFrame p] s = (after .rdRbr s).receive p := after_rxFrame_active p _ hafter
  have hframe : afterAll [.rxFrame p, .rdRbr] s = after .rdRbr (s.receive p) := by
    rw [afterAll_cons, after_rxFrame_active p s hbefore]
    rfl
  rw [hread, hframe]
  exact ⟨rfl, Bool.and_true _, rfl⟩

/-! ### The run records (R33, R230) -/

theorem mnemonic_eq_EV_RSV_iff (i : Instr) : i.mnemonic = .EV_RSV ↔ ∃ e, i = .evRsv e := by
  cases i <;> simp [Instr.mnemonic]

/-- Only EV_RSV writes `REFUSED` (R33, R77). -/
theorem after_refused (i : Instr) (s : State) :
    (after i s).refused = (s.refused || i.mnemonic == .EV_RSV) := by
  have hkept : s.refused = (s.refused || false) := (Bool.or_false _).symm
  cases i
  case evRsv e => exact (Bool.or_true _).symm
  case rxFrame p => rw [after_rxFrame]; split <;> exact hkept
  case txLoad => rw [after_txLoad]; split <;> exact hkept
  case txDone => rw [after_txDone]; split <;> exact hkept
  all_goals exact hkept

/-- Only TX_DONE writes `TXD_LOG`, EV_RESET included (R33). -/
theorem after_txdLog (i : Instr) (s : State) :
    (after i s).txdLog = s.txdLog ∨ (i = .txDone ∧ (after i s).txdLog = s.txdLog ++ [s.tsr]) := by
  by_cases hreset : i = .evReset
  · subst hreset
    exact .inl rfl
  obtain ⟨d, -, h⟩ | ⟨-, -, h⟩ | ⟨hi, -, h⟩ | ⟨-, hsame⟩ := after_transmit_cases i s hreset
  · exact .inl (by rw [h, State.fillThr_txdLog])
  · exact .inl (by rw [h, State.loadTsr_txdLog])
  · exact .inr ⟨hi, by rw [h, State.emitTsr_txdLog]⟩
  · exact .inl hsame.txdLog

/-- Settles O26: `after_txdLog` and `after_refused`. -/
theorem runRecordsOnlyGrow : Obligations.RunRecordsOnlyGrow := by
  intro i s t ht
  obtain rfl := (exec_next_iff i s t).mp ht
  refine ⟨after_txdLog i s, fun hset => ?_, fun hclear hset => ?_⟩
  · rw [after_refused, hset, Bool.true_or]
  · rw [after_refused, hclear, Bool.false_or, beq_iff_eq] at hset
    exact (mnemonic_eq_EV_RSV_iff i).mp hset

/-- Settles O41: `exec` answers `after`, and a step answers by `step_cases`. -/
theorem everyStimulusCompletes : Obligations.EveryStimulusCompletes := by
  refine ⟨fun i s => ⟨after i s, exec_eq i s, after_refused i s⟩, fun s => ?_⟩
  obtain h | ⟨w, ws, h⟩ := step_cases s
  · exact ⟨s, h⟩
  · exact ⟨_, h⟩

/-! ### The lines (R195, R56) -/

/-- Only WR_DIR and EV_RESET write `DIR` (R193, R250). -/
theorem after_dir (i : Instr) (s : State) (hw : ∀ d, i ≠ .wrDir d) (hr : i ≠ .evReset) :
    (after i s).dir = s.dir := by
  cases i
  case wrDir d => exact absurd rfl (hw d)
  case evReset => exact absurd rfl hr
  case rxFrame p => rw [after_rxFrame]; split <;> rfl
  case txLoad => rw [after_txLoad]; split <;> rfl
  case txDone => rw [after_txDone]; split <;> rfl
  all_goals rfl

theorem evReset_or_wrOut_of_out_changes {i : Instr} {s : State} (hne : (after i s).out ≠ s.out) :
    i = .evReset ∨ i = .wrOut (after i s).out := by
  by_contra hnot
  obtain ⟨hreset, hwrite⟩ := not_or.mp hnot
  refine hne (after_out i s (fun d hd => hwrite ?_) hreset)
  subst hd
  rfl

theorem evReset_or_wrDir_of_dir_changes {i : Instr} {s : State} (hne : (after i s).dir ≠ s.dir) :
    i = .evReset ∨ i = .wrDir (after i s).dir := by
  by_contra hnot
  obtain ⟨hreset, hwrite⟩ := not_or.mp hnot
  refine hne (after_dir i s (fun d hd => hwrite ?_) hreset)
  subst hd
  rfl

/-- A line level is made of `OUT` and `DIR` alone (R194). -/
theorem pin_congr {s t : State} (hout : t.out = s.out) (hdir : t.dir = s.dir) (j : Fin 8) : pin t j = pin s j := by
  rw [pin, pin, hout, hdir]

/-- Settles O40: a changed level is a changed `OUT` or a changed `DIR`. -/
theorem lineLevelWriters : Obligations.LineLevelWriters := by
  intro i s t ht
  obtain rfl := (exec_next_iff i s t).mp ht
  refine ⟨fun ⟨j, hpin⟩ => ?_, evReset_or_wrOut_of_out_changes, evReset_or_wrDir_of_dir_changes⟩
  by_cases hout : (after i s).out = s.out
  · have hdir : (after i s).dir ≠ s.dir := fun hdir => hpin (pin_congr hout hdir j)
    exact (evReset_or_wrDir_of_dir_changes hdir).imp_right fun h => .inr ⟨_, h⟩
  · exact (evReset_or_wrOut_of_out_changes hout).imp_right fun h => .inl ⟨_, h⟩

/-! ### The transmitter at rest (R25, R26, R78, R251) -/

theorem txLoadEnabled_eq_false_iff (s : State) :
    txLoadEnabled s = false ↔ s.thre = true ∨ s.tsrBusy = true ∨ s.txen = false ∨ s.dl = 0#16 := by
  rw [← Bool.not_eq_true, txLoadEnabled_iff, txActive_iff]
  simp [imp_iff_not_or]

theorem txDoneEnabled_eq_false_iff (s : State) :
    txDoneEnabled s = false ↔ s.tsrBusy = false ∨ s.txen = false ∨ s.dl = 0#16 := by
  rw [← Bool.not_eq_true, txDoneEnabled_iff, txActive_iff]
  simp [imp_iff_not_or]

theorem after_txLoad_disabled {s : State} (h : txLoadEnabled s = false) : after .txLoad s = s := by
  simp [after_txLoad, h]

theorem after_txDone_disabled {s : State} (h : txDoneEnabled s = false) : after .txDone s = s := by
  simp [after_txDone, h]

/-- Settles O25: the conditions are those under which the event is not enabled. -/
theorem disabledEngineEventChangesNothing : Obligations.DisabledEngineEventChangesNothing := by
  intro s
  refine ⟨fun hoff => ?_, fun hoff => ?_⟩
  · rw [exec_eq, after_txLoad_disabled ((txLoadEnabled_eq_false_iff s).mpr hoff)]
  · rw [exec_eq, after_txDone_disabled ((txDoneEnabled_eq_false_iff s).mpr hoff)]

/-- With no byte in the transmitter and none written, none is sent and none comes in. -/
theorem after_of_temt {i : Instr} {s : State} (hempty : temt s = true) (hwrite : ∀ d, i ≠ .wrThr d) :
    temt (after i s) = true ∧ (after i s).txdLog = s.txdLog := by
  obtain ⟨hthre, hbusy⟩ : s.thre = true ∧ s.tsrBusy = false := by simpa [temt] using hempty
  by_cases hreset : i = .evReset
  · subst hreset
    exact ⟨temt_hardReset s, rfl⟩
  obtain ⟨d, hi, -⟩ | ⟨-, hen, -⟩ | ⟨-, hen, -⟩ | ⟨-, hsame⟩ := after_transmit_cases i s hreset
  · exact absurd hi (hwrite d)
  · simp [txLoadEnabled, hthre] at hen
  · simp [txDoneEnabled, hbusy] at hen
  · exact ⟨by rw [temt, hsame.thre, hsame.tsrBusy]; exact hempty, hsame.txdLog⟩

theorem txdLog_afterAll_of_temt (is : List Instr) (s : State) (hempty : temt s = true)
    (hwrites : bytesWritten is = []) : (afterAll is s).txdLog = s.txdLog := by
  induction is generalizing s with
  | nil => rfl
  | cons i is ih =>
    obtain ⟨hi, his⟩ := List.append_eq_nil_iff.mp ((bytesWritten_cons i is).symm.trans hwrites)
    have hwrite : ∀ d, i ≠ .wrThr d := by
      rintro d rfl
      cases hi
    obtain ⟨hempty', hlog⟩ := after_of_temt hempty hwrite
    rw [afterAll_cons, ih _ hempty' his, hlog]

/-- Settles O13: EV_RESET empties the transmitter, and it stays empty until a WR_THR. -/
theorem resetAbandonsBytesInFlight : Obligations.ResetAbandonsBytesInFlight := by
  intro s t is ht hwrites
  obtain rfl := (exec_next_iff _ s t).mp ht
  exact ⟨txdLog_afterAll_of_temt is s.hardReset (temt_hardReset s) hwrites, rfl⟩

/-! ### No divisor, no traffic (R254, R142) -/

/-- Only the divisor writes make `DL` other than 0. -/
theorem after_dl_eq_zero {i : Instr} {s : State} (hdl : s.dl = 0#16) (hlow : ∀ d, i ≠ .wrDll d)
    (hhigh : ∀ d, i ≠ .wrDlm d) : (after i s).dl = 0#16 := by
  cases i
  case wrDll d => exact absurd rfl (hlow d)
  case wrDlm d => exact absurd rfl (hhigh d)
  case rxFrame p => rw [after_rxFrame]; split <;> exact hdl
  case txLoad => rw [after_txLoad]; split <;> exact hdl
  case txDone => rw [after_txDone]; split <;> exact hdl
  case evReset => rfl
  all_goals exact hdl

/-- With `DL = 0` no frame is taken, so `DR` does not rise. -/
theorem dr_of_after_dr {i : Instr} {s : State} (hdl : s.dl = 0#16) (hdr : (after i s).dr = true) : s.dr = true := by
  by_contra hnot
  obtain ⟨-, hact⟩ := rxFrame_of_dr_rises (Bool.eq_false_of_not_eq_true hnot) hdr
  simp [rxActive_eq_false_of_dl hdl] at hact

/-- With `DL = 0` TX_DONE is not enabled, so nothing is sent. -/
theorem after_txdLog_of_dl {s : State} (hdl : s.dl = 0#16) (i : Instr) : (after i s).txdLog = s.txdLog := by
  obtain h | ⟨rfl, -⟩ := after_txdLog i s
  · exact h
  · rw [after_txDone_disabled ((txDoneEnabled_eq_false_iff s).mpr (.inr (.inr hdl)))]

/-- Settles O36, by induction on the list: `DL` stays 0, so neither side runs at any of its stimuli. -/
theorem nothingRunsBeforeDivisor : Obligations.NothingRunsBeforeDivisor := by
  intro is
  induction is with
  | nil => exact fun s _ _ => ⟨id, rfl⟩
  | cons i is ih =>
    intro s hdl hwrites
    have hdl' : (after i s).dl = 0#16 := after_dl_eq_zero hdl
      (fun d hd => (hwrites d).1 (hd ▸ List.mem_cons_self)) (fun d hd => (hwrites d).2 (hd ▸ List.mem_cons_self))
    obtain ⟨hdr, hlog⟩ := ih (after i s) hdl' fun d =>
      (hwrites d).imp (mt (List.mem_cons_of_mem i)) (mt (List.mem_cons_of_mem i))
    exact ⟨fun h => dr_of_after_dr hdl (hdr h), hlog.trans (after_txdLog_of_dl hdl i)⟩

/-! ### What an idle transmitter holds (R25, R26) -/

/-- What the idle places of the transmitter hold stays unseen by one stimulus. -/
theorem sameButIdleTx_after {s t : State} (h : SameButIdleTx s t) (i : Instr) :
    SameButIdleTx (after i s) (after i t) := by
  obtain ⟨a, b, rfl, hthr, htsr⟩ := h
  cases i
  case wrThr d => exact ⟨d, b, rfl, fun _ => rfl, htsr⟩
  case evReset => exact ⟨_, _, rfl, fun _ => rfl, fun _ => rfl⟩
  case rxFrame p =>
    have hact : rxActive { s with thr := a, tsr := b } = rxActive s := rfl
    rw [after_rxFrame, after_rxFrame, hact]
    split <;> exact ⟨a, b, rfl, hthr, htsr⟩
  case txLoad =>
    have hen : txLoadEnabled { s with thr := a, tsr := b } = txLoadEnabled s := rfl
    rw [after_txLoad, after_txLoad, hen]
    split
    case isTrue hload =>
      obtain ⟨hthre, -⟩ := (txLoadEnabled_iff s).mp hload
      exact ⟨a, a, rfl, fun _ => hthr hthre, fun _ => hthr hthre⟩
    case isFalse => exact ⟨a, b, rfl, hthr, htsr⟩
  case txDone =>
    have hen : txDoneEnabled { s with thr := a, tsr := b } = txDoneEnabled s := rfl
    rw [after_txDone, after_txDone, hen]
    split
    case isTrue hdone =>
      obtain ⟨hbusy, -⟩ := (txDoneEnabled_iff s).mp hdone
      obtain rfl := htsr hbusy
      exact ⟨a, s.tsr, rfl, hthr, fun _ => rfl⟩
    case isFalse => exact ⟨a, b, rfl, hthr, htsr⟩
  all_goals exact ⟨a, b, rfl, hthr, htsr⟩

/-- Settles O30: `sameButIdleTx_after`, and states that differ so have the same records. -/
theorem idleTransmitBytesNeverObserved : Obligations.IdleTransmitBytesNeverObserved := by
  intro i s t s' t' hst hs ht
  obtain rfl := (exec_next_iff i s s').mp hs
  obtain rfl := (exec_next_iff i t t').mp ht
  have hafter := sameButIdleTx_after hst i
  refine ⟨hafter, ?_⟩
  obtain ⟨a, b, heq, -⟩ := hafter
  rw [heq]
  exact ⟨rfl, rfl⟩

end Sys2Proof.Machine
end

section
/-! PROOFS, family `other`, steps: the stimulus at the head of the schedule (R56, R57, R74), the idle step (R4, R123),
the values read along every step (R24, R27 to R29, R150), and steps with DLAB left set (R256). -/

namespace Sys2Proof.Machine

open Sys2Proof.Safety

/-! ### Steps with a stimulus waiting (R57, R74) -/

/-- Settles O1: `step_cons`, and what `decode` gives is well-formed and of its mode. -/
theorem stepRunsDecodedStimulus : Obligations.StepRunsDecodedStimulus := by
  intro s w ws hs
  refine ⟨?_, decode_wf s.dlab w⟩
  rw [step_cons s w ws hs, exec_eq]
  rfl

/-- Settles O37: with DLAB 1 the two words are RD_DLL and WR_DLL. -/
theorem dlabLeftSetHidesRbrAndThr : Obligations.DlabLeftSetHidesRbrAndThr := by
  intro s ws d x hdlab
  have hdlab' : (s.setSchedule ws).dlab = true := hdlab
  refine ⟨fun hs => ⟨lowByte s.dl, ?_, toNat_lowByte s.dl⟩,
    fun hs => ⟨joinBytes (highByte s.dl) d, ?_, toNat_joinBytes_highByte s.dl d⟩⟩
  · rw [step_cons s _ ws hs, deliver_read, hdlab']
    rfl
  · rw [step_cons s _ ws hs, deliver_write, hdlab']
    rfl

/-! ### The values read (R24, R27 to R29, R150) -/

theorem fixedBitsRight_lsrValue (s : State) : fixedBitsRight ⟨.lsr, lsrValue s⟩ = true := by
  unfold lsrValue temt
  cases s.thre <;> cases s.tsrBusy <;> cases s.dr <;> rfl

theorem fixedBitsRight_ierValue (s : State) : fixedBitsRight ⟨.ier, ierValue s⟩ = true := by
  unfold ierValue
  cases s.erbfi <;> rfl

theorem fixedBitsRight_lcrValue (s : State) : fixedBitsRight ⟨.lcr, lcrValue s⟩ = true := by
  unfold lcrValue
  cases s.stb <;> cases s.dlab <;> rfl

theorem fixedBitsRight_enrValue (s : State) : fixedBitsRight ⟨.enr, enrValue s⟩ = true := by
  unfold enrValue
  cases s.rxen <;> cases s.txen <;> rfl

theorem readsLegal_answer {s : State} {r : ReadReg} {v : Byte} (h : ReadsLegal s)
    (hv : fixedBitsRight ⟨r, v⟩ = true) : ReadsLegal (s.answer r v) := by
  simpa [ReadsLegal, hv] using h

/-- A stimulus returns only values whose fixed bits are right. -/
theorem readsLegal_after {s : State} (h : ReadsLegal s) (i : Instr) : ReadsLegal (after i s) := by
  cases i
  case rdLsr => exact readsLegal_answer h (fixedBitsRight_lsrValue s)
  case rdIer => exact readsLegal_answer h (fixedBitsRight_ierValue s)
  case rdLcr => exact readsLegal_answer h (fixedBitsRight_lcrValue s)
  case rdEnr => exact readsLegal_answer h (fixedBitsRight_enrValue s)
  case rdRbr => exact readsLegal_answer (r := .rbr) h rfl
  case rdRsv | rdDll | rdDlm | rdOut | rdDir => exact readsLegal_answer h rfl
  case rxFrame p => rw [after_rxFrame]; split <;> exact h
  case txLoad => rw [after_txLoad]; split <;> exact h
  case txDone => rw [after_txDone]; split <;> exact h
  all_goals exact h

/-- Settles O45: a step is no change, or one stimulus in a state with the same record of reads. -/
theorem stepKeepsReadsLegal : Obligations.StepKeepsReadsLegal := by
  intro s t hs hst
  obtain hidle | ⟨w, ws, hrun⟩ := step_cases s
  · cases hst.symm.trans hidle
    exact hs
  · cases hst.symm.trans hrun
    exact readsLegal_after (s := s.setSchedule ws) hs _

/-- Settles O46: nothing has been read at reset. -/
theorem resetReadsLegal : Obligations.ResetReadsLegal := List.all_nil

/-! ### Steps with no stimulus waiting (R4, R123) -/

theorem deliver_encode_txLoad (s : State) : deliver (encode .txLoad) s = after .txLoad s := deliver_event _ 0 s

theorem deliver_encode_txDone (s : State) : deliver (encode .txDone) s = after .txDone s := deliver_event _ 0 s

theorem step_idle_txLoad {s : State} (hs : s.schedule = []) (hen : txLoadEnabled s = true) :
    step s = .next s.loadTsr := by
  simp [step_nil s hs, engineStimulus, hen, deliver_encode_txLoad]

theorem step_idle_txDone {s : State} (hs : s.schedule = []) (hen : txDoneEnabled s = true) :
    step s = .next s.emitTsr := by
  have hload : txLoadEnabled s = false := by simp [txLoadEnabled, ((txDoneEnabled_iff s).mp hen).1]
  simp [step_nil s hs, engineStimulus, hload, hen, deliver_encode_txDone]

theorem step_idle_none {s : State} (hs : s.schedule = []) (hload : txLoadEnabled s = false)
    (hdone : txDoneEnabled s = false) : step s = .next s := by
  simp [step_nil s hs, engineStimulus, hload, hdone]

/-- Settles O2: the three cases of the engine's choice. -/
theorem stepWithoutStimulusRunsEngine : Obligations.StepWithoutStimulusRunsEngine := by
  intro s hs
  refine ⟨fun hthre hbusy hen hdl => ?_, fun hbusy hen hdl => ?_, fun hoff => ?_⟩
  · have hact : txActive s = true := (txActive_iff s).mpr ⟨hen, hdl⟩
    have hload : txLoadEnabled s = true := (txLoadEnabled_iff s).mpr ⟨hthre, hbusy, hact⟩
    rw [step_idle_txLoad hs hload, exec_eq, after_txLoad_enabled s hload]
  · have hdone : txDoneEnabled s = true := (txDoneEnabled_iff s).mpr ⟨hbusy, (txActive_iff s).mpr ⟨hen, hdl⟩⟩
    rw [step_idle_txDone hs hdone, exec_eq, after_txDone_enabled s hdone]
  · have hload : txLoadEnabled s = false := (txLoadEnabled_eq_false_iff s).mpr (by tauto)
    have hdone : txDoneEnabled s = false := (txDoneEnabled_eq_false_iff s).mpr (by tauto)
    exact step_idle_none hs hload hdone

/-- How many steps of the engine are left until the transmitter is empty: TX_DONE for a byte being sent, TX_LOAD and
TX_DONE for a byte waiting. -/
def engineStepsLeft (s : State) : Nat := s.tsrBusy.toNat + 2 * (!s.thre).toNat

theorem temt_iff_engineStepsLeft (s : State) : temt s = true ↔ engineStepsLeft s = 0 := by
  unfold temt engineStepsLeft
  cases s.thre <;> cases s.tsrBusy <;> simp

theorem engineStepsLeft_le (s : State) : engineStepsLeft s ≤ 3 := by
  unfold engineStepsLeft
  cases s.thre <;> cases s.tsrBusy <;> decide

/-- The idle block with its transmitter running: one step moves the bytes one event on and loses none. -/
theorem step_drains {s : State} (hs : s.schedule = []) (hact : txActive s = true) :
    ∃ t, step s = .next t ∧ t.schedule = [] ∧ txActive t = true ∧ txStream t = txStream s ∧
      engineStepsLeft t = engineStepsLeft s - 1 := by
  cases hbusy : s.tsrBusy with
  | true =>
    have hdone : txDoneEnabled s = true := (txDoneEnabled_iff s).mpr ⟨hbusy, hact⟩
    exact ⟨s.emitTsr, step_idle_txDone hs hdone, hs, hact, txStream_emitTsr s hbusy,
      by simp [engineStepsLeft, hbusy]⟩
  | false =>
    cases hthre : s.thre with
    | false =>
      have hload : txLoadEnabled s = true := (txLoadEnabled_iff s).mpr ⟨hthre, hbusy, hact⟩
      exact ⟨s.loadTsr, step_idle_txLoad hs hload, hs, hact, txStream_loadTsr s hthre hbusy,
        by simp [engineStepsLeft, hbusy, hthre]⟩
    | true =>
      have hnone : step s = .next s :=
        step_idle_none hs (by simp [txLoadEnabled, hthre]) (by simp [txDoneEnabled, hbusy])
      exact ⟨s, hnone, hs, hact, rfl, by simp [engineStepsLeft, hbusy, hthre]⟩

theorem run_succ_of_step {M : Host.Core} {n : Nat} {s t : M.State} (h : M.step s = .next t) :
    M.run (n + 1) s = M.run n t := by
  rw [Host.Core.run, h]

/-- Any number of steps of the idle block, its transmitter running. -/
theorem core_run_drains (n : Nat) (s : State) (hs : s.schedule = []) (hact : txActive s = true) :
    ∃ t, core.run n s = .next t ∧ txStream t = txStream s ∧ engineStepsLeft t = engineStepsLeft s - n := by
  induction n generalizing s with
  | zero => exact ⟨s, rfl, rfl, rfl⟩
  | succ n ih =>
    obtain ⟨u, hu, hus, huact, hustream, huleft⟩ := step_drains hs hact
    obtain ⟨t, ht, htstream, htleft⟩ := ih u hus huact
    exact ⟨t, (run_succ_of_step (M := core) hu).trans ht, htstream.trans hustream, by omega⟩

/-- Settles O29: three steps are as many as the engine can have left, and the bytes they sent are those it held. -/
theorem idleStepsDrainTransmitter : Obligations.IdleStepsDrainTransmitter := by
  intro s hs hen hdl
  obtain ⟨t, ht, hstream, hleft⟩ := core_run_drains 3 s hs ((txActive_iff s).mpr ⟨hen, hdl⟩)
  have hempty : temt t = true := (temt_iff_engineStepsLeft t).mpr (by have := engineStepsLeft_le s; omega)
  have hsent : txStream t = t.txdLog := txStream_eq_txdLog t ((pendingTx_eq_nil_iff t).mpr hempty)
  exact ⟨t, ht, hsent.symm.trans hstream, hempty⟩

end Sys2Proof.Machine
end

section
/-! PROOFS, family `other`, the surrounding software: the example tables (R212, R213), the bus window (R50, R52), the
boot (R253), `setline` (R80) and refused configurations (R173, R211). -/

namespace Sys2Proof.Machine

/-! ### The example tables (R212, R213) -/

theorem getLsbD_applyEntry (cmd new : Byte) (e : MapEntry) (i : Nat) :
    (applyEntry cmd new e).getLsbD i =
      if i = e.line.val then Bool.xor (cmd.getLsbD e.bit) (polarityInverts e.polarity) else new.getLsbD i :=
  getLsbD_putBit new e.line _ i

theorem decodeCommand_nil (cmd old : Byte) : decodeCommand [] cmd old = old := rfl

theorem decodeCommand_mapV1Example (cmd old : Byte) :
    decodeCommand mapV1Example cmd old = (old &&& 0xF8#8) ||| (cmd &&& 0x07#8) := by
  apply BitVec.eq_of_getLsbD_eq
  intro i hi
  simp only [mapV1Example, directMap, List.map_cons, List.map_nil, decodeCommand_cons, decodeCommand_nil,
    getLsbD_applyEntry, polarityInverts, BitVec.getLsbD_or, BitVec.getLsbD_and]
  interval_cases i <;> simp

theorem decodeCommand_mapV2Example (cmd old : Byte) :
    decodeCommand mapV2Example cmd old = (old &&& 0xF8#8) ||| ((cmd &&& 0x07#8) ^^^ 0x01#8) := by
  apply BitVec.eq_of_getLsbD_eq
  intro i hi
  simp only [mapV2Example, decodeCommand_cons, decodeCommand_nil, getLsbD_applyEntry, polarityInverts,
    BitVec.getLsbD_or, BitVec.getLsbD_and, BitVec.getLsbD_xor]
  interval_cases i <;> simp

/-- Settles O53: the tables' entries, bit by bit. -/
theorem exampleTablesClosedForm : Obligations.ExampleTablesClosedForm :=
  ⟨by decide, by decide, fun c o => ⟨decodeCommand_mapV1Example c o, decodeCommand_mapV2Example c o⟩⟩

/-! ### The bus window (R50, R52) -/

theorem reachesBlock_iff (base address : Nat) :
    reachesBlock base address = true ↔ base ≤ address ∧ address < base + 16 := by
  simp [reachesBlock]

theorem busAccess_outside {base : Nat} {a : BusAccess} (h : ¬ (base ≤ a.address ∧ a.address < base + 16))
    (s : State) : busAccess base a s = s := by
  rw [busAccess, if_neg (mt (reachesBlock_iff _ _).mp h)]

theorem busAccess_inside {base : Nat} {a : BusAccess} (h : base ≤ a.address ∧ a.address < base + 16) (s : State) :
    busAccess base a s =
      if a.bits = 8 then deliver (busWord a.write (BitVec.ofNat 4 (a.address - base)) a.data) s else s.refuse := by
  rw [busAccess, if_pos ((reachesBlock_iff _ _).mpr h)]

/-- Settles O59: outside the window, inside it with another width, and inside it with eight bits. -/
theorem busWindowAndWidth : Obligations.BusWindowAndWidth := by
  intro base a s
  refine ⟨fun hout => busAccess_outside (by omega) s, fun hlow hhigh hbits => ?_, fun off haddress hbits => ?_⟩
  · rw [busAccess_inside ⟨hlow, hhigh⟩, if_neg hbits]
    rfl
  · have hoff : BitVec.ofNat 4 (a.address - base) = off := by
      rw [haddress, Nat.add_sub_cancel_left, BitVec.ofNat_toNat, BitVec.setWidth_eq]
    have hin : base ≤ a.address ∧ a.address < base + 16 := by have := off.isLt; omega
    rw [busAccess_inside hin, if_pos hbits, hoff, exec_eq]
    rfl

/-! ### Turns of the main thread -/

section MainTurns

variable (v : HostVariant) (p : Config.Params) (s : State) (os : List HostOp) (e : Bool) (st : List HostOp)

/-- Where the last operation has ended, a turn of the host acts as though the next one had already begun. -/
theorem turn_begin (o : HostOp) (ho : (o.program p .done).isDone = false) :
    System.turn v p ⟨s, o :: os, .done, [], e, st⟩ .host =
      System.turn v p ⟨s, os, o.program p .done, [], e, st ++ [o]⟩ .host := by
  rw [System.turn, System.turn, hostTurn_main v p _ rfl, hostTurn_main v p _ rfl,
    begin_of_busy p ⟨s, os, o.program p .done, [], e, st ++ [o]⟩ ho]
  rfl

/-- A turn in which the main thread's operation acts. -/
theorem turn_main {h : HostProg} (hdone : h.isDone = false) (href : h.refuses = false) :
    System.turn v p ⟨s, os, h, [], e, st⟩ .host = ⟨h.effect s, os, h.rest s, [], e || h.enables, st⟩ := by
  rw [System.turn, hostTurn_main v p _ rfl, begin_of_busy p _ hdone, mainTurn_act v p _ hdone href]

theorem turn_write (a : Offset) (d : Byte) (k : HostProg) :
    System.turn v p ⟨s, os, .write a d k, [], e, st⟩ .host = ⟨busWrite a d s, os, k, [], e, st⟩ := by
  rw [turn_main v p s os e st rfl rfl]
  simp [HostProg.effect, HostProg.rest, HostProg.enables]

theorem turn_read (a : Offset) (k : Byte → HostProg) :
    System.turn v p ⟨s, os, .read a k, [], e, st⟩ .host =
      ⟨(busRead a s).2, os, k (busRead a s).1, [], e, st⟩ := by
  rw [turn_main v p s os e st rfl rfl]
  simp [HostProg.effect, HostProg.rest, HostProg.enables]

theorem turn_enableInterrupts (k : HostProg) :
    System.turn v p ⟨s, os, .enableInterrupts k, [], e, st⟩ .host = ⟨s, os, k, [], true, st⟩ := by
  rw [turn_main v p s os e st rfl rfl]
  simp [HostProg.effect, HostProg.rest, HostProg.enables]

theorem turn_refuse : System.turn v p ⟨s, os, .refuse, [], e, st⟩ .host = ⟨s.refuse, [], .done, [], e, st⟩ := by
  rw [System.turn, hostTurn_main v p _ rfl, begin_of_busy p _ rfl]
  rfl

/-- An operation of the main thread that is one bus write takes one turn. -/
theorem run_writeOperation {o : HostOp} {a : Offset} {d : Byte} (ho : o.program p .done = .write a d .done) :
    System.run v p [.host] ⟨s, o :: os, .done, [], e, st⟩ = ⟨busWrite a d s, os, .done, [], e, st ++ [o]⟩ := by
  rw [run_cons, turn_begin v p s os e st o (by rw [ho]; rfl), ho, turn_write, run_nil]

end MainTurns

/-! ### `setline` (R80) -/

/-- Settles O58: a turn that reads `OUT` and a turn that writes it back with the one bit put. -/
theorem setlineWritesOneBit : Obligations.SetlineWritesOneBit := by
  rintro v p ⟨s, os, main, ds, e, st⟩ j b hd hmain
  obtain rfl : ds = [] := hd
  obtain rfl : main = setline j b .done := hmain
  refine ⟨putBit s.out j b, ?_, fun k => ?_⟩
  · rw [setline, run_cons, turn_read, run_cons, turn_write, busRead_out, busWrite_out]
    rfl
  · rw [getLsbD_putBit]
    simp only [Fin.val_inj]

/-! ### The boot (R253) -/

/-- How many turns of the host a step of the boot takes. -/
def BootStep.turns (v : HostVariant) : BootStep → Nat
  | .latch | .directions | .hostInterrupts => 1
  | .initialise => 5
  | .receiveIrq =>
    match v with
    | .interrupt => 1
    | .blocking => 0

/-- What a step of the boot makes of the block, where `d` is the divisor of the reference rate. -/
def BootStep.effect (v : HostVariant) (p : Config.Params) (d : Half) (s : State) : BootStep → State
  | .latch => s.setOut p.outInit
  | .directions => s.setDir (mapMask p.map)
  | .initialise => ((s.setDl d).setLcr (decide (p.stopBits = .two)) false).setEnr true true
  | .receiveIrq =>
    match v with
    | .interrupt => s.setErbfi true
    | .blocking => s
  | .hostInterrupts => s

/-- Does a step of the boot enable the host's own interrupts? -/
def BootStep.enables : BootStep → Bool
  | .hostInterrupts => true
  | .latch | .directions | .initialise | .receiveIrq => false

theorem BootStep.effect_dlab (v : HostVariant) (p : Config.Params) (d : Half) {s : State} (h : s.dlab = false)
    (b : BootStep) : (b.effect v p d s).dlab = false := by
  cases b
  case receiveIrq => cases v <;> exact h
  case initialise => rfl
  all_goals exact h

theorem exists_divCalc (m : Rounding) (f : Nat) {r : Nat} (hr : r ≠ 0) : ∃ d, divCalc m f r = some d :=
  Option.ne_none_iff_exists'.mp (mt (divCalc_eq_none_iff m f r).mp hr)

/-- The program of `init` at a rate that has a divisor (R80). -/
theorem program_initialise {p : Config.Params} {r : Nat} {d : Half} (hd : divCalc p.rounding p.fRef r = some d) :
    (HostOp.initialise r).program p .done = setdiv d (lcrFor p.stopBits) (.write offEnr 0x03#8 .done) := by
  rw [HostOp.program, initialise, hd]

theorem lcrFor_bits (b : StopBits) : (lcrFor b).getLsbD 2 = decide (b = .two) ∧ (lcrFor b).getLsbD 7 = false ∧
    (lcrFor b ||| 0x80#8).getLsbD 7 = true := by
  cases b <;> decide

/-- The five writes of `init` (R80). -/
theorem run_initialise (v : HostVariant) {p : Config.Params} {r : Nat} {d : Half}
    (hd : divCalc p.rounding p.fRef r = some d) (s : State) (os : List HostOp) (e : Bool) (st : List HostOp) :
    System.run v p [.host, .host, .host, .host, .host] ⟨s, .initialise r :: os, .done, [], e, st⟩ =
      ⟨((s.setDl d).setLcr (decide (p.stopBits = .two)) false).setEnr true true, os, .done, [], e,
        st ++ [.initialise r]⟩ := by
  obtain ⟨hstb, hclear, hset⟩ := lcrFor_bits p.stopBits
  have hprog := program_initialise hd
  rw [run_cons, turn_begin v p s os e st _ (by rw [hprog]; rfl), hprog, setdiv]
  simp only [run_cons, run_nil, turn_write]
  rw [busWrite_lcr _ s, hset, busWrite_dll _ _ rfl, busWrite_dlm _ _ rfl, busWrite_lcr, busWrite_enr, hstb, hclear]
  simp [State.setLcr, State.setDl, State.setEnr]

/-- The turns of one step of the boot, its operations first in line. -/
theorem run_bootStep (v : HostVariant) {p : Config.Params} {d : Half}
    (hd : divCalc p.rounding p.fRef Config.refRate = some d) (b : BootStep) {s : State} (hdlab : s.dlab = false)
    (os : List HostOp) (e : Bool) (st : List HostOp) :
    System.run v p (List.replicate (b.turns v) .host) ⟨s, b.ops v p ++ os, .done, [], e, st⟩ =
      ⟨b.effect v p d s, os, .done, [], e || b.enables, st ++ b.ops v p⟩ := by
  cases b with
  | latch =>
    rw [BootStep.enables, Bool.or_false, BootStep.effect, ← busWrite_out]
    exact run_writeOperation v p s os e st rfl
  | directions =>
    rw [BootStep.enables, Bool.or_false, BootStep.effect, ← busWrite_dir]
    exact run_writeOperation v p s os e st rfl
  | initialise =>
    rw [BootStep.enables, Bool.or_false]
    exact run_initialise v hd s os e st
  | receiveIrq =>
    rw [BootStep.enables, Bool.or_false]
    cases v with
    | interrupt =>
      have hwrite : busWrite offIer 0x01#8 s = s.setErbfi true := busWrite_ier _ s hdlab
      exact (run_writeOperation .interrupt p s os e st (o := .enableReceiveIrq) rfl).trans (by rw [hwrite]; rfl)
    | blocking =>
      rw [BootStep.ops, List.append_nil]
      rfl
  | hostInterrupts =>
    rw [BootStep.enables, Bool.or_true]
    exact (turn_begin v p s os e st .enableInterrupts rfl).trans (turn_enableInterrupts v p s os e _ .done)

theorem run_append (v : HostVariant) (p : Config.Params) (ts us : List Turn) (y : System) :
    y.run v p (ts ++ us) = (y.run v p ts).run v p us := List.foldl_append

/-- The boot's steps in a row, in any order. -/
theorem run_bootSteps (v : HostVariant) {p : Config.Params} {d : Half}
    (hd : divCalc p.rounding p.fRef Config.refRate = some d) (order : List BootStep) {s : State}
    (hdlab : s.dlab = false) (e : Bool) (st : List HostOp) :
    System.run v p (List.replicate (order.map (BootStep.turns v)).sum .host)
      ⟨s, order.flatMap (BootStep.ops v p), .done, [], e, st⟩ =
      ⟨order.foldl (BootStep.effect v p d) s, [], .done, [], e || order.any BootStep.enables,
        st ++ order.flatMap (BootStep.ops v p)⟩ := by
  induction order generalizing s e st with
  | nil => simp
  | cons b order ih =>
    rw [List.map_cons, List.sum_cons, List.replicate_add, run_append, List.flatMap_cons,
      run_bootStep v hd b hdlab, ih (BootStep.effect_dlab v p d hdlab b), List.any_cons, List.foldl_cons,
      Bool.or_assoc, List.append_assoc]

/-- What the admitted orders have in common: each enables the host's interrupts, in as many turns. -/
theorem bootOrders_turns : ∀ order ∈ bootOrders, order.any BootStep.enables = true ∧
    (order.map (BootStep.turns .interrupt)).sum = 9 ∧ (order.map (BootStep.turns .blocking)).sum = 8 := by
  decide

/-- The steps write different registers, so every admitted order makes the same of the block. -/
theorem foldl_effect_of_mem_bootOrders {order : List BootStep} (horder : order ∈ bootOrders) (v : HostVariant)
    (p : Config.Params) (d : Half) (s : State) :
    order.foldl (BootStep.effect v p d) s =
      { s with out := p.outInit, dir := mapMask p.map, dl := d, stb := decide (p.stopBits = .two), dlab := false
               rxen := true, txen := true, erbfi := decide (v = .interrupt) || s.erbfi } := by
  fin_cases horder <;> cases v <;>
    simp [defaultBootOrder, BootStep.effect, State.setOut, State.setDir, State.setDl, State.setLcr,
      State.setEnr, State.setErbfi]

theorem initialisedOnceFirst_boot {order : List BootStep} (horder : order ∈ bootOrders) {p : Config.Params}
    (hwf : mapWf p.map = true) (v : HostVariant) : Safety.initialisedOnceFirst (boot v order p) = true := by
  rw [boot, if_pos hwf]
  fin_cases horder <;> cases v <;> rfl

/-- The boot of a well-formed table, from a block just reset. -/
theorem run_booting {v : HostVariant} {p : Config.Params} {order : List BootStep} {d : Half} {n : Nat} {s : State}
    (hd : divCalc p.rounding p.fRef Config.refRate = some d) (hwf : mapWf p.map = true) (horder : order ∈ bootOrders)
    (hn : (order.map (BootStep.turns v)).sum = n) (hdlab : s.dlab = false) :
    (System.booting v order p s).run v p (List.replicate n .host) =
      { block := { s with
          out := p.outInit, dir := mapMask p.map, dl := d, stb := decide (p.stopBits = .two), dlab := false
          rxen := true, txen := true, erbfi := decide (v = .interrupt) || s.erbfi }
        ops := [], main := .done, decoders := [], intEnable := true, started := boot v order p } := by
  obtain ⟨henables, -⟩ := bootOrders_turns order horder
  have hsteps := run_bootSteps v hd order hdlab false []
  rw [hn, foldl_effect_of_mem_bootOrders horder, henables] at hsteps
  rw [System.booting, boot, if_pos hwf]
  exact hsteps

theorem run_systemReset (v : HostVariant) (p : Config.Params) (order : List BootStep) (ts : List Turn) (y : System) :
    y.run v p (.systemReset order :: ts) = (System.booting v order p y.block.hardReset).run v p ts := by
  rw [run_cons, System.turn, encode, deliver_event]
  rfl

/-- Settles O57: `run_booting` from the power-on state and from a block that EV_RESET has just reset. -/
theorem bootConfiguresBlock : Obligations.BootConfiguresBlock := by
  intro p order horder hwf
  obtain ⟨d, hd⟩ := exists_divCalc p.rounding p.fRef (r := Config.refRate) (by decide)
  obtain ⟨-, hinterrupt, hblocking⟩ := bootOrders_turns order horder
  refine ⟨d, hd, run_booting hd hwf horder hinterrupt rfl, fun y => ?_, fun y => ?_,
    initialisedOnceFirst_boot horder hwf⟩
  · rw [run_systemReset]
    exact run_booting hd hwf horder hinterrupt rfl
  · rw [run_systemReset]
    exact run_booting hd hwf horder hblocking rfl

/-! ### Refused configurations (R173, R211) -/

theorem mapWf_iff (map : DecodeMap) : mapWf map = true ↔ (map.map (·.line)).Nodup ∧ (map.map (·.bit)).Nodup := by
  simp [mapWf]

theorem handler_of_not_wf {map : DecodeMap} (h : ¬ mapWf map = true) (k : HostProg) : handler map k = .refuse := by
  rw [handler, if_neg h]

theorem boot_of_not_wf {p : Config.Params} (h : ¬ mapWf p.map = true) (v : HostVariant) (order : List BootStep) :
    boot v order p = [.refuseConfiguration] := by
  rw [boot, if_neg h]

theorem program_initialise_zero (p : Config.Params) : (HostOp.initialise 0).program p .done = .refuse := by
  rw [HostOp.program, initialise, (divCalc_eq_none_iff _ _ _).mpr rfl]

/-- The check of a rate on its own (R173). -/
theorem configureRate_snd (m : Rounding) (f r : Nat) (s : State) :
    (configureRate m f r s).2 = if r = 0 then { s with refused := true } else s := by
  by_cases hr : r = 0
  · rw [if_pos hr, configureRate, (divCalc_eq_none_iff m f r).mpr hr]
    rfl
  · obtain ⟨d, hd⟩ := exists_divCalc m f hr
    rw [if_neg hr, configureRate, hd]

/-- A turn that begins a refused operation. -/
theorem turn_begin_refuse (v : HostVariant) {p : Config.Params} {o : HostOp} (ho : o.program p .done = .refuse)
    (s : State) (os : List HostOp) (e : Bool) (st : List HostOp) :
    System.turn v p ⟨s, o :: os, .done, [], e, st⟩ .host = ⟨s.refuse, [], .done, [], e, st ++ [o]⟩ := by
  rw [turn_begin v p s os e st o (by rw [ho]; rfl), ho, turn_refuse]

/-- `init` at a positive rate begins with a write of `LCR`, which leaves `REFUSED`. -/
theorem turn_begin_initialise_refused (v : HostVariant) (p : Config.Params) {r : Nat} (hr : r ≠ 0)
    (s : State) (os : List HostOp) (e : Bool) (st : List HostOp) :
    (System.turn v p ⟨s, .initialise r :: os, .done, [], e, st⟩ .host).block.refused = s.refused := by
  obtain ⟨d, hd⟩ := exists_divCalc p.rounding p.fRef hr
  have hprog := program_initialise hd
  rw [turn_begin v p s os e st _ (by rw [hprog]; rfl), hprog, setdiv, turn_write, busWrite_lcr]
  rfl

theorem bootOrders_head : ∀ order ∈ bootOrders, order.head? = some .latch ∨ order.head? = some .initialise := by
  decide

/-- The boot of a well-formed table begins with a write of the latch or with `init`, which leave `REFUSED`. -/
theorem turn_booting_refused {v : HostVariant} {p : Config.Params} {order : List BootStep}
    (horder : order ∈ bootOrders) (hwf : mapWf p.map = true) (s : State) :
    ((System.booting v order p s).turn v p .host).block.refused = s.refused := by
  rw [System.booting, boot, if_pos hwf]
  obtain hfirst | hfirst := bootOrders_head order horder <;> obtain ⟨rest, rfl⟩ := List.head?_eq_some_iff.mp hfirst
  · have hturn := run_writeOperation v p s (rest.flatMap (BootStep.ops v p)) false [] (o := .writeLatch p.outInit) rfl
    rw [busWrite_out] at hturn
    exact congrArg (·.block.refused) hturn
  · exact turn_begin_initialise_refused v p (by decide) s (rest.flatMap (BootStep.ops v p)) false []

/-- Settles O60: `init`, the boot and the handler refuse in their first action exactly the rate 0 and the
ill-formed tables. -/
theorem badConfigurationIsRefused : Obligations.BadConfigurationIsRefused := by
  unfold Obligations.BadConfigurationIsRefused
  simp only [← mapWf_iff]
  refine ⟨?_, ?_, ?_, configureRate_snd, fun map s => ⟨fun hwf => if_pos hwf, fun hbad => if_neg hbad⟩⟩
  · rintro v p r os ⟨s, ops, main, ds, e, st⟩ hd hmain hops
    obtain rfl : ds = [] := hd
    obtain rfl : main = .done := hmain
    obtain rfl : ops = .initialise r :: os := hops
    refine ⟨?_, fun hr => turn_begin_initialise_refused v p hr s os e st⟩
    rintro rfl
    exact turn_begin_refuse v (o := .initialise 0) (program_initialise_zero p) s os e st
  · intro v p order y horder
    rw [run_systemReset]
    refine ⟨fun hbad => ?_, fun hwf => turn_booting_refused horder hwf _⟩
    rw [System.booting, boot_of_not_wf hbad]
    exact turn_begin_refuse v (o := .refuseConfiguration) rfl _ [] false []
  · intro v p hs y hd
    refine ⟨fun hbad => ?_, fun hwf => by rw [turn_handler v p hwf hd]; rfl⟩
    rw [handler_of_not_wf hbad] at hd
    rw [System.turn, hostTurn_decoder v p y _ hs hd]
    rfl

end Sys2Proof.Machine
end
